-- ==== Sys2Proof/Word.lean ====
section
/-! DEFINITION. The words of the engine: levels and bits, the 8-bit address operand and the 16-bit value operand
(`00_scope.md` R4 `ADDRW` = 8, `VW` = `RW` = 16; R81: every value is unsigned). -/

namespace Sys2Proof

/-- A level on a pin, or one bit of a field: `true` is 1 (high), `false` is 0 (low); positive logic on `DI` and
`DO` (`92_eei_decisions.md` D1, log 23). -/
abbrev Level := Bool

/-- The address operand at the host port, `ADDRW` = 8 bits (R4, D7, log 19). -/
abbrev Addr := BitVec 8

/-- A value operand, a field being transmitted, or the read result: 16 bits (R4 `VW`, `RW`; R26 `TSR`, `RSR`). -/
abbrev Word := BitVec 16

end Sys2Proof
end

