-- ==== Sys2Proof/Config.lean ====
section
/-! DEFINITION. The addressing mode, the implementation parameters of `00_scope.md` R4, and the one free value: the
level on `DO` when the environment's script has run out (R6). The spec's default values are
`Machine.defaultConfig` (`Machine/Operands.lean`). -/

namespace Sys2Proof

/-- The addressing mode (R22): `X16` is the 16-bit-word/64-cell mode, `X8` the 8-bit-byte/128-cell mode. -/
inductive Mode where
  | X16
  | X8
deriving DecidableEq, Repr

/-- The legal values of `RD16_AW` (R4, D4): how many address bits `READ` sends in mode `X16`. -/
inductive ReadAddrWidth where
  | six
  | eight
deriving DecidableEq, Repr

/-- The four pin identifiers (R25), opaque identifiers of the I/O collaborator, written here as numbers. -/
structure Pins where
  CS : Nat
  SK : Nat
  DI : Nat
  DO : Nat
deriving DecidableEq, Repr

/-- The parameters of R4 that are not fixed by the mode. They never change while the engine runs (log 24). -/
structure Config where
  /-- `PIN_CS`, `PIN_SK`, `PIN_DI`, `PIN_DO`: "assigned at construction, immutable thereafter" (R25, log 12). -/
  pins : Pins
  /-- The identifiers that are pins of the I/O collaborator (R195, D12, log 12). -/
  validPins : List Nat
  /-- `RD16_AW` (R79, D4, log 9). -/
  rd16aw : ReadAddrWidth
  /-- `READY_LEVEL` (R104, D3, log 8). -/
  readyLevel : Level
  /-- `T_HOLD` in microseconds (R234, D5, log 11). -/
  tHold : Nat
  /-- `RESET_LEVEL` of `CS` (R23, D2, log 10). -/
  resetCS : Level
  /-- `RESET_LEVEL` of `SK` (R23, D2, log 10). -/
  resetSK : Level
  /-- `RESET_LEVEL` of `DI` (R23, D2, log 10). -/
  resetDI : Level
deriving DecidableEq, Repr

/-- FREE VALUE (log 2). The level `DO` shows at the `n`-th sample taken after the environment's script has run out.
It has no body: R6 says the value "is not computed by the engine", R163 that a model "must not assume zero". -/
opaque Config.freeLevel : Nat → Level

end Sys2Proof
end

