-- ==== Sys2Proof/Syntax.lean ====
section
/-! DEFINITION. Pins, the ten operations, the instructions (one constructor per row of the opcode table: ten host
operations R70 and fifteen wire frames R73 to R79) and the two forms in which an instruction is presented. -/

namespace Sys2Proof

/-- The four lines of the interface (C4: four lines, not three). -/
inductive Pin where
  | CS
  | SK
  | DI
  | DO
deriving DecidableEq, Repr

/-- The three lines the engine drives (R23). -/
inductive OutPin where
  | CS
  | SK
  | DI
deriving DecidableEq, Repr

/-- A pin direction (R24). -/
inductive Dir where
  | output
  | input
deriving DecidableEq, Repr

/-- The ten operations, which is what the register `OP` holds (R27, R70). -/
inductive Op where
  | construct
  | setmode
  | ewen
  | ewds
  | query
  | eral
  | wral
  | write
  | erase
  | read
deriving DecidableEq, Repr

/-- The instructions. The first ten are the host operations with the operands of the command port (R70, R28). The
rest are the wire frames; their arguments are the frame's own fields (R71): `dc` the don't-care bits of a control code, `a` the
address field, `d` the data field. -/
inductive Instr where
  | construct
  | setmode (m : Mode)
  | ewen
  | ewds
  | query
  | eral
  | wral (v : Word)
  | write (a : Addr) (v : Word)
  | erase (a : Addr)
  | read (a : Addr)
  | ewdsX16 (dc : BitVec 4)
  | ewdsX8 (dc : BitVec 5)
  | wralX16 (dc : BitVec 4) (d : BitVec 16)
  | wralX8 (dc : BitVec 5) (d : BitVec 8)
  | eralX16 (dc : BitVec 4)
  | eralX8 (dc : BitVec 5)
  | ewenX16 (dc : BitVec 4)
  | ewenX8 (dc : BitVec 5)
  | writeX16 (a : BitVec 6) (d : BitVec 16)
  | writeX8 (a : BitVec 7) (d : BitVec 8)
  | eraseX16 (a : BitVec 6)
  | eraseX8 (a : BitVec 7)
  | readX16 (a : BitVec 6)
  | readX16A8 (a : BitVec 8)
  | readX8 (a : BitVec 7)
deriving DecidableEq, Repr

/-- The operation an instruction asks for; for a wire frame, the operation that emits it (R73 to R79). -/
def Instr.op : Instr → Op
  | .construct => .construct
  | .setmode _ => .setmode
  | .ewen => .ewen
  | .ewds => .ewds
  | .query => .query
  | .eral => .eral
  | .wral _ => .wral
  | .write _ _ => .write
  | .erase _ => .erase
  | .read _ => .read
  | .ewdsX16 _ => .ewds
  | .ewdsX8 _ => .ewds
  | .wralX16 _ _ => .wral
  | .wralX8 _ _ => .wral
  | .eralX16 _ => .eral
  | .eralX8 _ => .eral
  | .ewenX16 _ => .ewen
  | .ewenX8 _ => .ewen
  | .writeX16 _ _ => .write
  | .writeX8 _ _ => .write
  | .eraseX16 _ => .erase
  | .eraseX8 _ => .erase
  | .readX16 _ => .read
  | .readX16A8 _ => .read
  | .readX8 _ => .read

/-- The mode a wire frame belongs to (the table's "mode"); a host operation belongs to none. -/
def Instr.frameMode : Instr → Option Mode
  | .construct => none
  | .setmode _ => none
  | .ewen => none
  | .ewds => none
  | .query => none
  | .eral => none
  | .wral _ => none
  | .write _ _ => none
  | .erase _ => none
  | .read _ => none
  | .ewdsX16 _ => some .X16
  | .ewdsX8 _ => some .X8
  | .wralX16 _ _ => some .X16
  | .wralX8 _ _ => some .X8
  | .eralX16 _ => some .X16
  | .eralX8 _ => some .X8
  | .ewenX16 _ => some .X16
  | .ewenX8 _ => some .X8
  | .writeX16 _ _ => some .X16
  | .writeX8 _ _ => some .X8
  | .eraseX16 _ => some .X16
  | .eraseX8 _ => some .X8
  | .readX16 _ => some .X16
  | .readX16A8 _ => some .X16
  | .readX8 _ => some .X8

/-- The value of `RD16_AW` a wire frame depends on: only the two `X16` forms of `READ` depend on one (R79). -/
def Instr.frameReadWidth : Instr → Option ReadAddrWidth
  | .construct => none
  | .setmode _ => none
  | .ewen => none
  | .ewds => none
  | .query => none
  | .eral => none
  | .wral _ => none
  | .write _ _ => none
  | .erase _ => none
  | .read _ => none
  | .ewdsX16 _ => none
  | .ewdsX8 _ => none
  | .wralX16 _ _ => none
  | .wralX8 _ _ => none
  | .eralX16 _ => none
  | .eralX8 _ => none
  | .ewenX16 _ => none
  | .ewenX8 _ => none
  | .writeX16 _ _ => none
  | .writeX8 _ _ => none
  | .eraseX16 _ => none
  | .eraseX8 _ => none
  | .readX16 _ => some .six
  | .readX16A8 _ => some .eight
  | .readX8 _ => none

/-- The four operations gated by `EW` (R70 column "gated", R133). -/
def Op.mutating : Op → Bool
  | .construct => false
  | .setmode => false
  | .ewen => false
  | .ewds => false
  | .query => false
  | .eral => true
  | .wral => true
  | .write => true
  | .erase => true
  | .read => false

/-- How an instruction is presented. `command` is one transaction at the host port (R28, R83): `CMD`, `ADDR`, `VAL`,
`MODE_IN` (`false` is 0). `frame` is a frame in wire order, first bit first (R71). -/
inductive Presented where
  | command (cmd : BitVec 4) (addr : Addr) (val : Word) (modeIn : Bool)
  | frame (bits : List Level)
deriving DecidableEq, Repr

end Sys2Proof
end

