-- ==== Sys2Proof/WellFormed.lean ====
section
/-! DEFINITION. Which instructions and which configurations are well formed. -/

namespace Sys2Proof

/-- A well-formed instruction. Every operand of a host operation fits its port by its type. A control-code frame
has its don't-care bits 0: they "are always sent as 0" (R82 (a)). -/
def Instr.wf : Instr → Bool
  | .construct => true
  | .setmode _ => true
  | .ewen => true
  | .ewds => true
  | .query => true
  | .eral => true
  | .wral _ => true
  | .write _ _ => true
  | .erase _ => true
  | .read _ => true
  | .ewdsX16 dc => dc == 0
  | .ewdsX8 dc => dc == 0
  | .wralX16 dc _ => dc == 0
  | .wralX8 dc _ => dc == 0
  | .eralX16 dc => dc == 0
  | .eralX8 dc => dc == 0
  | .ewenX16 dc => dc == 0
  | .ewenX8 dc => dc == 0
  | .writeX16 _ _ => true
  | .writeX8 _ _ => true
  | .eraseX16 _ => true
  | .eraseX8 _ => true
  | .readX16 _ => true
  | .readX16A8 _ => true
  | .readX8 _ => true

/-- The four identifiers as a list, in the order `CS`, `SK`, `DI`, `DO`. -/
def Pins.toList (p : Pins) : List Nat := [p.CS, p.SK, p.DI, p.DO]

/-- "four valid and pairwise distinct identifiers" (D12, R195). -/
def Config.pinsOk (c : Config) : Bool :=
  decide c.pins.toList.Nodup && c.pins.toList.all (fun p => c.validPins.contains p)

/-- A legal configuration: valid distinct pins and a positive `T_HOLD` (R4, column "legal values"). The other
parameters have only legal values by their types. -/
def Config.wf (c : Config) : Bool := c.pinsOk && decide (0 < c.tHold)

end Sys2Proof
end

