-- ==== Sys2Proof/Decode.lean ====
section
/-! DEFINITION. Reading an instruction from a command-port transaction (R83) or from the bits of a wire frame
(R71, R86), the encoder written from the same tables (R73 to R79, R83), and the opcode table's own bit numbering. -/

namespace Sys2Proof

/-- The low `n` bits of `v`, most significant first: the order of every field on the wire (R54). -/
def wireBits (v : Nat) : Nat → List Level
  | 0 => []
  | i + 1 => v.testBit i :: wireBits v i

/-- A bit vector as a field on the wire (R54). -/
def wire {n : Nat} (v : BitVec n) : List Level := wireBits v.toNat n

/-- The number whose bits, most significant first, are `bits` (R54). -/
def ofWireBits (bits : List Level) : Nat := bits.foldl (fun acc b => 2 * acc + b.toNat) 0

/-- Why something presented is not an instruction. -/
inductive Reject where
  /-- Host codes 10 to 15 (R83). -/
  | reservedCode (code : BitVec 4)
  /-- A frame of a length that is none of R87's (R82 (c)). -/
  | noFrameOfLength (n : Nat)
  /-- A frame without its start bit (R82 (b)). -/
  | noStartBit
  /-- A `WRITE` or `WRAL` command field with no data field after it (R71). -/
  | dataMissing
  /-- A data field after a command field that takes none (R71). -/
  | dataUnexpected
  /-- An 11-bit frame whose opcode is not `READ`'s (R79). -/
  | notARead
deriving DecidableEq, Repr

/-- What decoding gives. -/
inductive Decoded where
  | instr (i : Instr)
  | rejected (why : Reject)
deriving DecidableEq, Repr

/-- `MODE_IN`: 0 is `X16`, 1 is `X8` (R22, D8). -/
def modeOfBit (b : Level) : Mode := if b then .X8 else .X16

/-- The bit of a mode on `MODE_IN` (R22, D8). -/
def bitOfMode : Mode → Level
  | .X16 => false
  | .X8 => true

/-- The command port (R70 column "code", R83). Ports an operation does not use are ignored (log 20). -/
def decodeCommand (cmd : BitVec 4) (addr : Addr) (val : Word) (modeIn : Level) : Decoded :=
  match cmd.toNat with
  | 0 => .instr .construct
  | 1 => .instr (.setmode (modeOfBit modeIn))
  | 2 => .instr .ewen
  | 3 => .instr .ewds
  | 4 => .instr .query
  | 5 => .instr .eral
  | 6 => .instr (.wral val)
  | 7 => .instr (.write addr val)
  | 8 => .instr (.erase addr)
  | 9 => .instr (.read addr)
  | _ => .rejected (.reservedCode cmd)

/-- An `X16` frame without data, from `F` = start bit and command field (R71, R86): `F[8]` start bit, `F[7:6]` opcode, `F[5:4]`
sub-code, `F[3:0]` don't-care, `F[5:0]` address. -/
def decodeX16 (f : BitVec 9) : Decoded :=
  if f.getLsbD 8 then
    match (f.extractLsb' 6 2).toNat, (f.extractLsb' 4 2).toNat with
    | 0, 0 => .instr (.ewdsX16 (f.extractLsb' 0 4))
    | 0, 1 => .rejected .dataMissing
    | 0, 2 => .instr (.eralX16 (f.extractLsb' 0 4))
    | 0, _ => .instr (.ewenX16 (f.extractLsb' 0 4))
    | 1, _ => .rejected .dataMissing
    | 2, _ => .instr (.readX16 (f.extractLsb' 0 6))
    | _, _ => .instr (.eraseX16 (f.extractLsb' 0 6))
  else .rejected .noStartBit

/-- An `X16` frame with a data field of 16 bits: `WRAL` or `WRITE` (R76, R77). -/
def decodeX16Data (f : BitVec 9) (d : BitVec 16) : Decoded :=
  if f.getLsbD 8 then
    match (f.extractLsb' 6 2).toNat, (f.extractLsb' 4 2).toNat with
    | 0, 1 => .instr (.wralX16 (f.extractLsb' 0 4) d)
    | 1, _ => .instr (.writeX16 (f.extractLsb' 0 6) d)
    | _, _ => .rejected .dataUnexpected
  else .rejected .noStartBit

/-- An `X8` frame without data (R71, R86): `F[9]` start bit, `F[8:7]` opcode, `F[6:5]` sub-code, `F[4:0]` don't-care,
`F[6:0]` address. -/
def decodeX8 (f : BitVec 10) : Decoded :=
  if f.getLsbD 9 then
    match (f.extractLsb' 7 2).toNat, (f.extractLsb' 5 2).toNat with
    | 0, 0 => .instr (.ewdsX8 (f.extractLsb' 0 5))
    | 0, 1 => .rejected .dataMissing
    | 0, 2 => .instr (.eralX8 (f.extractLsb' 0 5))
    | 0, _ => .instr (.ewenX8 (f.extractLsb' 0 5))
    | 1, _ => .rejected .dataMissing
    | 2, _ => .instr (.readX8 (f.extractLsb' 0 7))
    | _, _ => .instr (.eraseX8 (f.extractLsb' 0 7))
  else .rejected .noStartBit

/-- An `X8` frame with a data field of 8 bits: `WRAL` or `WRITE` (R76, R77). -/
def decodeX8Data (f : BitVec 10) (d : BitVec 8) : Decoded :=
  if f.getLsbD 9 then
    match (f.extractLsb' 7 2).toNat, (f.extractLsb' 5 2).toNat with
    | 0, 1 => .instr (.wralX8 (f.extractLsb' 0 5) d)
    | 1, _ => .instr (.writeX8 (f.extractLsb' 0 7) d)
    | _, _ => .rejected .dataUnexpected
  else .rejected .noStartBit

/-- The 11-bit `READ` frame of `RD16_AW` = 8 (R79, R86: match 0x600, mask 0x700). -/
def decodeA8 (f : BitVec 11) : Decoded :=
  if f.getLsbD 10 then
    if (f.extractLsb' 8 2).toNat = 2 then .instr (.readX16A8 (f.extractLsb' 0 8)) else .rejected .notARead
  else .rejected .noStartBit

/-- A frame in wire order. Its length tells the mode and whether data follow: 9, 25 are `X16`, 10, 18 are `X8`,
11 is the long `READ` (R71, R79, R87). -/
def decodeFrame (bits : List Level) : Decoded :=
  if bits.length = 9 then decodeX16 (BitVec.ofNat 9 (ofWireBits bits))
  else if bits.length = 10 then decodeX8 (BitVec.ofNat 10 (ofWireBits bits))
  else if bits.length = 11 then decodeA8 (BitVec.ofNat 11 (ofWireBits bits))
  else if bits.length = 18 then
    decodeX8Data (BitVec.ofNat 10 (ofWireBits (bits.take 10))) (BitVec.ofNat 8 (ofWireBits (bits.drop 10)))
  else if bits.length = 25 then
    decodeX16Data (BitVec.ofNat 9 (ofWireBits (bits.take 9))) (BitVec.ofNat 16 (ofWireBits (bits.drop 9)))
  else .rejected (.noFrameOfLength bits.length)

/-- The decoder, total on everything that can be presented. -/
def decode : Presented → Decoded
  | .command cmd addr val modeIn => decodeCommand cmd addr val modeIn
  | .frame bits => decodeFrame bits

/-! The encoder: host codes of R70, frame patterns of R73 to R79 (start bit, opcode, sub-code or address, data). -/

/-- What is presented for an instruction. Ports an operation does not use are 0 (log 20). -/
def encode : Instr → Presented
  | .construct => .command 0 0 0 false
  | .setmode m => .command 1 0 0 (bitOfMode m)
  | .ewen => .command 2 0 0 false
  | .ewds => .command 3 0 0 false
  | .query => .command 4 0 0 false
  | .eral => .command 5 0 0 false
  | .wral v => .command 6 0 v false
  | .write a v => .command 7 a v false
  | .erase a => .command 8 a 0 false
  | .read a => .command 9 a 0 false
  | .ewdsX16 dc => .frame (wire (0b1#1 ++ 0b00#2 ++ 0b00#2 ++ dc))
  | .ewdsX8 dc => .frame (wire (0b1#1 ++ 0b00#2 ++ 0b00#2 ++ dc))
  | .wralX16 dc d => .frame (wire (0b1#1 ++ 0b00#2 ++ 0b01#2 ++ dc) ++ wire d)
  | .wralX8 dc d => .frame (wire (0b1#1 ++ 0b00#2 ++ 0b01#2 ++ dc) ++ wire d)
  | .eralX16 dc => .frame (wire (0b1#1 ++ 0b00#2 ++ 0b10#2 ++ dc))
  | .eralX8 dc => .frame (wire (0b1#1 ++ 0b00#2 ++ 0b10#2 ++ dc))
  | .ewenX16 dc => .frame (wire (0b1#1 ++ 0b00#2 ++ 0b11#2 ++ dc))
  | .ewenX8 dc => .frame (wire (0b1#1 ++ 0b00#2 ++ 0b11#2 ++ dc))
  | .writeX16 a d => .frame (wire (0b1#1 ++ 0b01#2 ++ a) ++ wire d)
  | .writeX8 a d => .frame (wire (0b1#1 ++ 0b01#2 ++ a) ++ wire d)
  | .eraseX16 a => .frame (wire (0b1#1 ++ 0b11#2 ++ a))
  | .eraseX8 a => .frame (wire (0b1#1 ++ 0b11#2 ++ a))
  | .readX16 a => .frame (wire (0b1#1 ++ 0b10#2 ++ a))
  | .readX16A8 a => .frame (wire (0b1#1 ++ 0b10#2 ++ a))
  | .readX8 a => .frame (wire (0b1#1 ++ 0b10#2 ++ a))

/-! The opcode table's numbering (log 7): a host row's word is `CMD`; a frame row's first word is `F` = start bit and
command field ("match/mask are over the first 1+OW bits F"), its second word the data field. -/

/-- Does a command field `F` given without data want a data field? Then the table word's missing operand bits are 0. -/
def withZeroData (bits : List Level) (dataWidth : Nat) : Presented :=
  match decodeFrame bits with
  | .rejected .dataMissing => .frame (bits ++ wireBits 0 dataWidth)
  | _ => .frame bits

/-- What the opcode table's word `w` of `nbits` bits presents. Up to 8 bits: a host command. Up to 16: `F` alone,
its length told by its start bit. Up to 24: an `X8` frame with data. Above: an `X16` frame with data. -/
def tablePresented (nbits w : Nat) : Presented :=
  if nbits ≤ 8 then
    if w < 16 then .command (BitVec.ofNat 4 w) 0 0 false else .frame (wireBits w nbits)
  else if nbits ≤ 16 then
    if w < 0x200 then withZeroData (wireBits w 9) 16
    else if w < 0x400 then withZeroData (wireBits w 10) 8
    else if w < 0x800 then .frame (wireBits w 11)
    else .frame (wireBits w nbits)
  else if nbits ≤ 24 then .frame (wireBits w 10 ++ wireBits (w / 2 ^ 10) 8)
  else .frame (wireBits w 9 ++ wireBits (w / 2 ^ 9) 16)

/-- The instruction the decoder reads from a word of the opcode table (fixed name of the host). -/
def decodeTableWord (nbits w : Nat) : Option Instr :=
  match decode (tablePresented nbits w) with
  | .instr i => some i
  | .rejected _ => none

end Sys2Proof
end

