-- ==== Sys2Proof/Machine/Operands.lean ====
section
/-! DEFINITION. Mode-dependent widths (R4), the base codes (R72), how operands enter a frame (R80, R81), how sampled
bits make a result (R102, R161), and the default values of the parameters (R4, D2 to D5). -/

namespace Sys2Proof.Machine

/-- `OW(m)`: width of the command field, not counting the start bit (R4, C1). -/
def OW : Mode → Nat
  | .X16 => 8
  | .X8 => 9

/-- `AW(m)`: width of the address field (R4). -/
def AW : Mode → Nat
  | .X16 => 6
  | .X8 => 7

/-- `DW(m)`: width of the data field (R4). -/
def DW : Mode → Nat
  | .X16 => 16
  | .X8 => 8

/-- `SH(m)`: left shift of opcode and control-code values (R4, R72). -/
def SH : Mode → Nat
  | .X16 => 0
  | .X8 => 1

/-- `NCELL(m)`: number of cells (R4, R51). -/
def NCELL : Mode → Nat
  | .X16 => 64
  | .X8 => 128

/-- `RD16_AW` as a number of bits (R4). -/
def readAddrBits : ReadAddrWidth → Nat
  | .six => 6
  | .eight => 8

/-- `CC_EWDS` (R72). -/
def CC_EWDS : Word := 0x00
/-- `CC_WRAL` (R72). -/
def CC_WRAL : Word := 0x10
/-- `CC_ERAL` (R72). -/
def CC_ERAL : Word := 0x20
/-- `CC_EWEN` (R72). -/
def CC_EWEN : Word := 0x30
/-- `OPC_WRITE` (R72, C3). -/
def OPC_WRITE : Word := 0x40
/-- `OPC_READ` (R72, C3). -/
def OPC_READ : Word := 0x80
/-- `OPC_ERASE` (R72, C3). -/
def OPC_ERASE : Word := 0xC0
/-- The 2-bit opcode `0b10` that `READ` sends by itself in `X16` (R79). -/
def READ_OPCODE2 : Word := 0b10

/-- `trunc_n(v) = v mod 2^n` (`00_scope.md` section 6). -/
def trunc (n : Nat) (v : Word) : Word := (v.setWidth n).setWidth 16

/-- The address operand as a 16-bit value (`zext_16`). -/
def zextAddr (a : Addr) : Word := a.setWidth 16

/-- The command field of an operation without an address: `base << SH(m)` (R80). -/
def codeField (m : Mode) (base : Word) : Word := base <<< SH m

/-- The command field with an address: `CF = (OPC << SH) | trunc_AW(A)` (R80, R81 (c): truncated before the OR). -/
def addrField (m : Mode) (base : Word) (a : Addr) : Word := (base <<< SH m) ||| trunc (AW m) (zextAddr a)

/-- The data field: `trunc_DW(V)` (R80). -/
def dataField (m : Mode) (v : Word) : Word := trunc (DW m) v

/-- The address field of `READ` in `X16`: `trunc_RD16_AW(A)` (R79, D4). -/
def readAddrField (w : ReadAddrWidth) (a : Addr) : Word := trunc (readAddrBits w) (zextAddr a)

/-- `RSR[i] <- b` (R171). -/
def setBit (r : Word) (i : Nat) (b : Level) : Word :=
  if b then r ||| (1#16 <<< i) else r &&& ~~~(1#16 <<< i)

/-- The result of receiving `bits`, first sampled bit most significant, zero-extended (R102, R161). -/
def ofSamples (bits : List Level) : Word := BitVec.ofNat 16 (ofWireBits bits)

/-- The spec's default parameters (`92_eei_decisions.md`, "Open parameters, collected"): `RD16_AW` = 6 (D4, log 9), `READY_LEVEL`
= 1 (D3, log 8), `T_HOLD` = 1 (D5, log 11), `RESET_LEVEL` = 0, 0, 0 (D2, log 10). The pin identifiers are arguments
of construction; four distinct ones stand for them (log 12). -/
def defaultConfig : Config where
  pins := { CS := 0, SK := 1, DI := 2, DO := 3 }
  validPins := [0, 1, 2, 3]
  rd16aw := .six
  readyLevel := true
  tHold := 1
  resetCS := false
  resetSK := false
  resetDI := false

end Sys2Proof.Machine
end

