-- ==== Sys2Proof/Machine/State.lean ====
section
/-! DEFINITION. The machine's state (R20), events (R5), why a step can stop, and the state after reset (R33). -/

namespace Sys2Proof.Machine

/-- One use of the digital-I/O collaborator (R5): configure a pin's direction, write a level, sample `DO`, delay. -/
inductive Event where
  | CFG (p : Pin) (d : Dir)
  | W (p : OutPin) (v : Level)
  | S (b : Level)
  | D (n : Nat)
deriving DecidableEq, Repr

/-- The pin directions `DIR[p]` (R24). -/
structure PinDirs where
  CS : Dir
  SK : Dir
  DI : Dir
  DO : Dir
deriving DecidableEq, Repr

/-- The return value of an operation (R7 (b)): the bit of `QUERY`, the value of `READ`, or nothing (R70 "output"). -/
inductive Ret where
  | nothing
  | bit (b : Level)
  | value (w : Word)
deriving DecidableEq, Repr

/-- The state. The first group is the spec's (R20, R170); the second is the model's own (INVENTORY.md, log 1 to 3, 16, 24). -/
structure State where
  /-- `EW`, the write-enable latch shadow (R21). -/
  ew : Bool
  /-- `MODE`, the addressing mode (R22). -/
  mode : Mode
  /-- `CS`, output latch of the select line (R23). -/
  cs : Level
  /-- `SK`, output latch of the clock line (R23). -/
  sk : Level
  /-- `DI`, output latch of the data-in line (R23). -/
  di : Level
  /-- `DIR[CS]`, `DIR[SK]`, `DIR[DI]`, `DIR[DO]` (R24). -/
  dir : PinDirs
  /-- `TSR`, the value being transmitted (R26). -/
  tsr : Word
  /-- `TCNT`, the position of the bit in flight (R26). -/
  tcnt : BitVec 5
  /-- `RSR`, the read result; also the `RESULT` port (R26, R28). -/
  rsr : Word
  /-- `OP`, the operation in progress (R27). -/
  op : Op
  /-- `A_L`, the latched address operand (R27). -/
  aL : Addr
  /-- `V_L`, the latched value operand (R27). -/
  vL : Word
  /-- The latched operand `m` of `SETMODE` (R170, log 15). -/
  mL : Mode
  /-- `UPC`, the index of the next micro-operation (R27). -/
  upc : Nat
  /-- `BUSY` (R27). -/
  busy : Bool
  /-- MODEL'S OWN. The parameters of R4, constant (log 24). -/
  cfg : Config
  /-- MODEL'S OWN. A `CONSTRUCT` has completed (R173, R222, log 16). -/
  constructed : Bool
  /-- MODEL'S OWN. The events performed so far, oldest first (R5, log 3). -/
  trace : List Event
  /-- MODEL'S OWN. The return value of the operation completed last (R7, log 3). -/
  ret : Ret
  /-- MODEL'S OWN. The levels the environment will answer, one per sample (R6, log 2). -/
  doScript : List Level
  /-- MODEL'S OWN. How many free levels were drawn after the script ran out (log 2). -/
  drawn : Nat
  /-- MODEL'S OWN. What the host will present, in order (R170, log 1). -/
  host : List Presented
deriving DecidableEq, Repr

/-- Why the machine stops with a fault. The block itself has none (R190). -/
inductive Fault where
  /-- Raised by `resume` and `seqStep` in a state with `BUSY = 1` and `UPC` above the length of the micro-program, which R27 rules out
  (log 18). Safe: the model stops where the spec gives no step, and no run reaches such a state. -/
  | upcBeyondProgram
deriving DecidableEq, Repr

/-- Why an instruction is refused. Each stands for a run the spec gives no meaning, so each is safe. -/
inductive Refusal where
  /-- Raised by `exec`'s arms for an instruction without a meaning. Safe. -/
  | notModelled (mnemonic : String)
  /-- Raised by every instruction presented while `BUSY = 1` (R181, R207, D10; log 17). Safe. -/
  | busy
  /-- Raised by every instruction but `CONSTRUCT` before the first construction (R173, R207, U10; log 16). Safe. -/
  | notConstructed
  /-- Raised by `CONSTRUCT` with invalid or coinciding pin identifiers (R195, R207, D12; log 12). Safe. -/
  | badPins
  /-- Raised by `step` when what the host presents decodes to no instruction, such as codes 10 to 15 (R83, R207). Safe. -/
  | notAnInstruction (why : Reject)
  /-- Raised by a wire frame of the mode the engine is not in: its frames are those of `MODE` (R84, R227; log 5). Safe. -/
  | frameOfOtherMode
  /-- Raised by an `X16` `READ` frame of the other value of `RD16_AW` (R79, D4; log 5). Safe. -/
  | readFrameOfOtherWidth
  /-- Raised by a control-code frame with a don't-care bit 1, which the engine never sends (R82 (a), U9; log 6). Safe. -/
  | dontCareNotZero
deriving DecidableEq, Repr

/-- What an instruction or a step answers. -/
abbrev Result := Host.Outcome State Fault Refusal

/-- The state right after reset, which is the state after `CONSTRUCT` completes (R33, R220), with nothing presented and nothing scripted.
`OP`, `A_L`, `V_L`, `UPC`, `TSR`, `TCNT`, `RSR` are unspecified by R33 (log 13). -/
def State.reset : State where
  ew := false
  mode := .X16
  cs := defaultConfig.resetCS
  sk := defaultConfig.resetSK
  di := defaultConfig.resetDI
  dir := { CS := .output, SK := .output, DI := .output, DO := .input }
  tsr := 0
  tcnt := 0
  rsr := 0
  op := .construct
  aL := 0
  vL := 0
  mL := .X16
  upc := 0
  busy := false
  cfg := defaultConfig
  constructed := true
  trace := []
  ret := .nothing
  doScript := []
  drawn := 0
  host := []

end Sys2Proof.Machine
end

