-- ==== Sys2Proof/Machine/Flags.lean ====
section
/-! DEFINITION. The one flag, `EW` (R21): setting, clearing, the gate (R133), and the output ports that show state (R28). -/

namespace Sys2Proof.Machine

/-- `EW <- 1` (R130). -/
def State.setEw (s : State) : State := { s with ew := true }

/-- `EW <- 0` (R131, R120). -/
def State.clearEw (s : State) : State := { s with ew := false }

/-- The gate (R133, R176): with `EW = 0` a mutating operation has the empty micro-program. -/
def gated {α : Type} (ew : Bool) (program : List α) : List α := if ew then program else []

/-- The `BUSY` port (R28). -/
def State.busyPort (s : State) : Level := s.busy

/-- The `EW_Q` port, "it may simply show `EW` at all times" (R28). -/
def State.ewqPort (s : State) : Level := s.ew

/-- The `RESULT` port, which is `RSR` (R28). -/
def State.resultPort (s : State) : Word := s.rsr

end Sys2Proof.Machine
end

