-- ==== Sys2Proof/Machine/Microprogram.lean ====
section
/-! DEFINITION. Micro-operations (R171) and the micro-program of each operation (R172), with the three building
blocks `TX` (R100), `RX` (R102) and `WAIT` (R104). -/

namespace Sys2Proof.Machine

/-- A micro-operation (R171). `drive v i` is R171's `uW(DI, v[i])` as the transmitter performs it: it also shows the transmitter's
registers, `TSR` = `v` and `TCNT` = `i` (R26, log 14). -/
inductive MicroOp where
  /-- `uCFG(p, dir)`. -/
  | config (p : Pin) (d : Dir)
  /-- `uW(p, v)`. -/
  | write (p : OutPin) (v : Level)
  /-- `uW(DI, v[i])` inside `TX(v, n)`. -/
  | drive (v : Word) (i : Nat)
  /-- `uD(n)`. -/
  | delay (n : Nat)
  /-- `uD(n)` as the receiver performs it at the start of bit `i` inside `RX`: it also shows the receiver's position, `TCNT` = `i`
  (R26, log 14). -/
  | hold (i : Nat) (n : Nat)
  /-- `uSMP(i)`. -/
  | sample (i : Nat)
  /-- `uPOLL`. -/
  | poll
deriving DecidableEq, Repr

/-- `tx(v, n)`, `6n` micro-operations (R100, R172), with `T` the hold. -/
def tx (T : Nat) (v : Word) : Nat → List MicroOp
  | 0 => []
  | i + 1 =>
    [.drive v i, .delay T, .write .SK true, .delay T, .write .SK false, .write .DI false] ++ tx T v i

/-- `rx(n)`, `5n` micro-operations (R102, R172). `TCNT` starts at `n - 1` with the first of them and counts down to 0 (R26). -/
def rx (T : Nat) : Nat → List MicroOp
  | 0 => []
  | i + 1 => [.hold i T, .write .SK true, .delay T, .sample i, .write .SK false] ++ rx T i

/-- `wait`, 3 micro-operations (R104, R172). -/
def wait : List MicroOp := [.write .CS true, .poll, .write .CS false]

/-- `frame(cf)`: select, start bit, command field (R107, R172). -/
def frame (T : Nat) (m : Mode) (cf : Word) : List MicroOp :=
  [.write .CS true] ++ tx T 1 1 ++ tx T cf (OW m)

/-- `prog(CONSTRUCT)` (R120, R172). -/
def progConstruct : List MicroOp :=
  [.config .CS .output, .config .SK .output, .config .DI .output, .config .DO .input]

/-- `prog(SETMODE)` (R121, R172). -/
def progSetmode : List MicroOp := []

/-- `prog(QUERY)` (R132, R172). -/
def progQuery : List MicroOp := []

/-- `prog(EWEN)` (R130, R172). -/
def progEwen (T : Nat) (m : Mode) : List MicroOp := frame T m (codeField m CC_EWEN) ++ [.write .CS false]

/-- `prog(EWDS)` (R131, R172). -/
def progEwds (T : Nat) (m : Mode) : List MicroOp := frame T m (codeField m CC_EWDS) ++ [.write .CS false]

/-- `prog(ERAL)` once past the gate (R141, R172). -/
def progEral (T : Nat) (m : Mode) : List MicroOp :=
  frame T m (codeField m CC_ERAL) ++ [.write .CS false] ++ wait

/-- `prog(WRAL)` once past the gate (R142, R172). -/
def progWral (T : Nat) (m : Mode) (v : Word) : List MicroOp :=
  frame T m (codeField m CC_WRAL) ++ tx T (dataField m v) (DW m) ++ [.write .CS false] ++ wait

/-- `prog(WRITE)` once past the gate (R143, R172). -/
def progWrite (T : Nat) (m : Mode) (a : Addr) (v : Word) : List MicroOp :=
  frame T m (addrField m OPC_WRITE a) ++ tx T (dataField m v) (DW m) ++ [.write .CS false] ++ wait

/-- `prog(ERASE)` once past the gate (R144, R172). -/
def progErase (T : Nat) (m : Mode) (a : Addr) : List MicroOp :=
  frame T m (addrField m OPC_ERASE a) ++ [.write .CS false] ++ wait

/-- `prog(READ)`, whose `X16` form depends on `RD16_AW` (R160, R172). -/
def progRead (T : Nat) (w : ReadAddrWidth) (m : Mode) (a : Addr) : List MicroOp :=
  match m with
  | .X16 =>
    [.write .CS true] ++ tx T 1 1 ++ tx T READ_OPCODE2 2 ++ tx T (readAddrField w a) (readAddrBits w)
      ++ rx T 16 ++ [.write .CS false]
  | .X8 => frame T .X8 (addrField .X8 OPC_READ a) ++ rx T 8 ++ [.write .CS false]

/-- The micro-program `P` of the operation in `OP`, from `A_L`, `V_L`, `MODE`, `EW` and the parameters (R172). None of these
changes before the complete step (R178), so reading `P` from the state at any step gives what was fixed at acceptance. -/
def progOf (s : State) : List MicroOp :=
  match s.op with
  | .construct => progConstruct
  | .setmode => progSetmode
  | .ewen => progEwen s.cfg.tHold s.mode
  | .ewds => progEwds s.cfg.tHold s.mode
  | .query => progQuery
  | .eral => gated s.ew (progEral s.cfg.tHold s.mode)
  | .wral => gated s.ew (progWral s.cfg.tHold s.mode s.vL)
  | .write => gated s.ew (progWrite s.cfg.tHold s.mode s.aL s.vL)
  | .erase => gated s.ew (progErase s.cfg.tHold s.mode s.aL)
  | .read => progRead s.cfg.tHold s.cfg.rd16aw s.mode s.aL

end Sys2Proof.Machine
end

