-- ==== Sys2Proof/Machine/Ops.lean ====
section
/-! DEFINITION. The shared operations: the collaborator's primitives on the state (R5), the micro step (R174, R175),
the accept and complete steps (R173, R178), running a micro-program, and the checks every instruction makes first.
The block has no exception: no trap entry and no trap return exist to be modelled (R190, R198, R199). -/

namespace Sys2Proof.Machine

/-- Append an event to the trace (R5). -/
def State.emit (s : State) (e : Event) : State := { s with trace := s.trace ++ [e] }

/-- Latch `p <- v` (R23, R171). -/
def State.setPin (s : State) (p : OutPin) (v : Level) : State :=
  match p with
  | .CS => { s with cs := v }
  | .SK => { s with sk := v }
  | .DI => { s with di := v }

/-- `DIR[p] <- d` (R24, R171). -/
def State.setDir (s : State) (p : Pin) (d : Dir) : State :=
  match p with
  | .CS => { s with dir := { s.dir with CS := d } }
  | .SK => { s with dir := { s.dir with SK := d } }
  | .DI => { s with dir := { s.dir with DI := d } }
  | .DO => { s with dir := { s.dir with DO := d } }

/-- `UPC <- UPC + 1` (R27). -/
def State.advance (s : State) : State := { s with upc := s.upc + 1 }

/-- The transmitter's registers while bit `i` of `v` is in flight (R26, log 14). -/
def State.loadTx (s : State) (v : Word) (i : Nat) : State := { s with tsr := v, tcnt := BitVec.ofNat 5 i }

/-- The receiver's position from the start of its bit `i` on (R26, log 14). -/
def State.loadRx (s : State) (i : Nat) : State := { s with tcnt := BitVec.ofNat 5 i }

/-- `RSR[i] <- b`, `i` being the position `TCNT` shows (R26, R171, log 14). -/
def State.storeRx (s : State) (i : Nat) (b : Level) : State := { s with rsr := setBit s.rsr i b }

/-- The level the environment answers to the next sample: the script's head, else a free value (R6, log 2). -/
def State.nextLevel (s : State) : Level :=
  match s.doScript with
  | [] => Config.freeLevel s.drawn
  | b :: _ => b

/-- The environment after answering one sample (R6, log 2). -/
def State.takeLevel (s : State) : State :=
  match s.doScript with
  | [] => { s with drawn := s.drawn + 1 }
  | _ :: rest => { s with doScript := rest }

/-- The next `n` levels the environment answers, first answer first. -/
def State.levels : Nat → State → List Level
  | 0, _ => []
  | n + 1, s => s.nextLevel :: State.levels n s.takeLevel

/-- The environment after answering `n` samples. -/
def State.takeLevels : Nat → State → State
  | 0, s => s
  | n + 1, s => State.takeLevels n s.takeLevel

/-- One micro step (R171, R174, R175). Only a poll that does not see `READY_LEVEL` leaves `UPC` unchanged. -/
def microStep (u : MicroOp) (s : State) : State :=
  match u with
  | .config p d => ((s.setDir p d).emit (.CFG p d)).advance
  | .write p v => ((s.setPin p v).emit (.W p v)).advance
  | .drive v i => (((s.loadTx v i).setPin .DI (v.getLsbD i)).emit (.W .DI (v.getLsbD i))).advance
  | .delay n => (s.emit (.D n)).advance
  | .hold i n => ((s.loadRx i).emit (.D n)).advance
  | .sample i => ((s.takeLevel.storeRx i s.nextLevel).emit (.S s.nextLevel)).advance
  | .poll =>
    if s.nextLevel = s.cfg.readyLevel then (s.takeLevel.emit (.S s.nextLevel)).advance
    else s.takeLevel.emit (.S s.nextLevel)

/-- The commit of `CONSTRUCT` (R120, R178): `EW`, `MODE`, the latches to `RESET_LEVEL` without a `W` event (D2). -/
def commitConstruct (s : State) : State :=
  { s.clearEw with
    mode := .X16, cs := s.cfg.resetCS, sk := s.cfg.resetSK, di := s.cfg.resetDI, constructed := true, ret := .nothing }

/-- The commit of `SETMODE` (R121, R178). -/
def commitSetmode (s : State) : State := { s with mode := s.mL, ret := .nothing }

/-- The commit of `EWEN` (R130, R178): `EW` "becomes `true` only after an explicit enable call completes". -/
def commitEwen (s : State) : State := { s.setEw with ret := .nothing }

/-- The commit of `EWDS` (R131, R178). -/
def commitEwds (s : State) : State := { s.clearEw with ret := .nothing }

/-- The commit of `QUERY` (R132, R178): "the result is `EW`". -/
def commitQuery (s : State) : State := { s with ret := .bit s.ew }

/-- The commit of `READ` (R160, R178): "the result is `zext_16(RSR)`". -/
def commitRead (s : State) : State := { s with ret := .value s.rsr }

/-- The commit of the four mutating operations (R145, R178): "nothing". -/
def commitMutating (s : State) : State := { s with ret := .nothing }

/-- The commit by `OP` (R178). -/
def commit (s : State) : State :=
  match s.op with
  | .construct => commitConstruct s
  | .setmode => commitSetmode s
  | .ewen => commitEwen s
  | .ewds => commitEwds s
  | .query => commitQuery s
  | .eral => commitMutating s
  | .wral => commitMutating s
  | .write => commitMutating s
  | .erase => commitMutating s
  | .read => commitRead s

/-- The complete step (R178): the commit, then `BUSY <- 0`; no event. -/
def completeStep (s : State) : State := { commit s with busy := false }

/-- `RSR <- 0` "when `OP = READ`" (R173). -/
def clearForRead (op : Op) (r : Word) : Word := if op = .read then 0 else r

/-- The accept step (R173), the operands having been latched: `OP`, `UPC <- 0`, `BUSY <- 1`, `RSR <- 0` for `READ`; no event. -/
def acceptStep (op : Op) (s : State) : State :=
  { s with op := op, upc := 0, busy := true, rsr := clearForRead op s.rsr }

/-- Run the rest of a micro-program, then complete; stop early, still busy, at a poll that does not see `READY_LEVEL`, which the
next step performs again (R174, R175, R178; log 4). -/
def runMicro : List MicroOp → State → State
  | [], s => completeStep s
  | u :: rest, s =>
    let t := microStep u s
    if t.upc = s.upc then t else runMicro rest t

/-- The operation in progress, from `UPC` on (log 4). `UPC` above the program's length is no state of the spec's (R27, log 18). -/
def resume (s : State) : Result :=
  if s.upc ≤ (progOf s).length then .next (runMicro ((progOf s).drop s.upc) s) else .fault .upcBeyondProgram

/-- One step of the spec's own size (R174, R175, R178) of the operation in progress: a micro step, or the complete step. -/
def seqStep (s : State) : Result :=
  match (progOf s)[s.upc]? with
  | some u => .next (microStep u s)
  | none => if s.upc = (progOf s).length then .next (completeStep s) else .fault .upcBeyondProgram

/-- Why an operation is not accepted, if it is not: the engine is busy (R181), not constructed (R173, R222), or would be constructed on
bad pins (R195). DESIGN CHOICE (log 26): the spec leaves `BUSY` unspecified before the first construction and lets `CONSTRUCT` be
accepted from there (R173); the model takes `BUSY` to be 0 there, and refuses a first `CONSTRUCT` in a state that has it 1. -/
def refusalOf (op : Op) (s : State) : Option Refusal :=
  if s.busy then some .busy
  else if op = .construct then (if s.cfg.pinsOk then none else some .badPins)
  else if s.constructed then none
  else some .notConstructed

/-- One transaction (R170) on a state whose operands are latched: accept, run, complete. -/
def operate (op : Op) (s : State) : Result :=
  match refusalOf op s with
  | some r => .refused r
  | none => .next (runMicro (progOf (acceptStep op s)) (acceptStep op s))

/-- Why a wire frame is not one this engine emits now, if it is not: a don't-care bit is 1 (R82), it belongs to the other mode (R84), or to
the other value of `RD16_AW` (R79). -/
def frameRefusal (i : Instr) (s : State) : Option Refusal :=
  if i.wf = false then some .dontCareNotZero
  else if i.frameMode ≠ some s.mode then some .frameOfOtherMode
  else if i.frameReadWidth ≠ none ∧ i.frameReadWidth ≠ some s.cfg.rd16aw then some .readFrameOfOtherWidth
  else none

/-- A wire frame: the operation that emits it, on a state whose operands are latched, when the engine would emit it (log 5). -/
def operateFrame (i : Instr) (s : State) : Result :=
  match refusalOf i.op s with
  | some r => .refused r
  | none =>
    match frameRefusal i s with
    | some r => .refused r
    | none => operate i.op s

end Sys2Proof.Machine
end

