-- ==== Sys2Proof/Machine/ConfigOps.lean ====
section
/-! DEFINITION. The configuration operations (`41_config.md`): `CONSTRUCT`, `SETMODE`. -/

namespace Sys2Proof.Machine

/-- `CONSTRUCT` (R120, R220): four `CFG` events, then the reset values. Accepted idle, before or after the first construction
(R173, D11); the pin identifiers are `State.cfg.pins` (R25). -/
def execConstruct (s : State) : Result := operate .construct s

/-- `SETMODE m` (R121): no event, `MODE <- m`. -/
def execSetmode (m : Mode) (s : State) : Result := operate .setmode { s with mL := m }

end Sys2Proof.Machine
end

