-- ==== Sys2Proof/Machine/Latch.lean ====
section
/-! DEFINITION. Write-enable latch control (`42_latch.md`): `EWEN`, `EWDS`, `QUERY`. -/

namespace Sys2Proof.Machine

/-- `EWEN` (R130): the frame R73, then `EW <- 1`; never gated, no completion wait. -/
def execEwen (s : State) : Result := operate .ewen s

/-- `EWDS` (R131): the frame R74, then `EW <- 0`; never gated, no completion wait. -/
def execEwds (s : State) : Result := operate .ewds s

/-- `QUERY` (R132): returns `EW`; no event. -/
def execQuery (s : State) : Result := operate .query s

end Sys2Proof.Machine
end

