-- ==== Sys2Proof/Machine/Mutating.lean ====
section
/-! DEFINITION. The mutating operations (`43_program.md`): `ERAL`, `WRAL`, `WRITE`, `ERASE`, each the gate, one frame and the
completion wait (R140). -/

namespace Sys2Proof.Machine

/-- `ERAL` (R141). -/
def execEral (s : State) : Result := operate .eral s

/-- `WRAL V` (R142). -/
def execWral (v : Word) (s : State) : Result := operate .wral { s with vL := v }

/-- `WRITE A, V` (R143). -/
def execWrite (a : Addr) (v : Word) (s : State) : Result := operate .write { s with aL := a, vL := v }

/-- `ERASE A` (R144). -/
def execErase (a : Addr) (s : State) : Result := operate .erase { s with aL := a }

end Sys2Proof.Machine
end

