-- ==== Sys2Proof/Machine/Read.lean ====
section
/-! DEFINITION. The read operation (`44_read.md`): `READ`. -/

namespace Sys2Proof.Machine

/-- `READ A` (R160, R161): not gated, no completion wait; returns the 16 or 8 sampled bits. -/
def execRead (a : Addr) (s : State) : Result := operate .read { s with aL := a }

end Sys2Proof.Machine
end

