-- ==== Sys2Proof/Machine/WireFrames.lean ====
section
/-! DEFINITION. The wire-frame rows of the opcode table (`30_encoding.md` R73 to R79, R86). A frame is what one operation shifts out in one
mode. As an instruction it is that operation with the operands its fields spell: the engine performs it, and so puts exactly these bits on the
wire, when it is in the frame's mode (and, for the two `X16` forms of `READ`, has the frame's `RD16_AW`); otherwise the
engine never emits the frame (R82, R84) and it is refused (log 5, log 6). -/

namespace Sys2Proof.Machine

/-- `EWDS.X16`: the frame of `EWDS` in mode `X16` (R74, R86). -/
def execEwdsX16 (dc : BitVec 4) (s : State) : Result := operateFrame (.ewdsX16 dc) s

/-- `EWDS.X8`: the frame of `EWDS` in mode `X8` (R74, R86). -/
def execEwdsX8 (dc : BitVec 5) (s : State) : Result := operateFrame (.ewdsX8 dc) s

/-- `WRAL.X16`: the frame of `WRAL` with data `d` in mode `X16` (R76, R86). -/
def execWralX16 (dc : BitVec 4) (d : BitVec 16) (s : State) : Result := operateFrame (.wralX16 dc d) { s with vL := d }

/-- `WRAL.X8`: the frame of `WRAL` with data `d` in mode `X8` (R76, R86). -/
def execWralX8 (dc : BitVec 5) (d : BitVec 8) (s : State) : Result := operateFrame (.wralX8 dc d) { s with vL := d.setWidth 16 }

/-- `ERAL.X16`: the frame of `ERAL` in mode `X16` (R75, R86). -/
def execEralX16 (dc : BitVec 4) (s : State) : Result := operateFrame (.eralX16 dc) s

/-- `ERAL.X8`: the frame of `ERAL` in mode `X8` (R75, R86). -/
def execEralX8 (dc : BitVec 5) (s : State) : Result := operateFrame (.eralX8 dc) s

/-- `EWEN.X16`: the frame of `EWEN` in mode `X16` (R73, R86). -/
def execEwenX16 (dc : BitVec 4) (s : State) : Result := operateFrame (.ewenX16 dc) s

/-- `EWEN.X8`: the frame of `EWEN` in mode `X8` (R73, R86). -/
def execEwenX8 (dc : BitVec 5) (s : State) : Result := operateFrame (.ewenX8 dc) s

/-- `WRITE.X16`: the frame of `WRITE` to cell `a` with data `d` in mode `X16` (R77, R86). -/
def execWriteX16 (a : BitVec 6) (d : BitVec 16) (s : State) : Result := operateFrame (.writeX16 a d) { s with aL := a.setWidth 8, vL := d }

/-- `WRITE.X8`: the frame of `WRITE` to cell `a` with data `d` in mode `X8` (R77, R86). -/
def execWriteX8 (a : BitVec 7) (d : BitVec 8) (s : State) : Result := operateFrame (.writeX8 a d) { s with aL := a.setWidth 8, vL := d.setWidth 16 }

/-- `ERASE.X16`: the frame of `ERASE` of cell `a` in mode `X16` (R78, R86). -/
def execEraseX16 (a : BitVec 6) (s : State) : Result := operateFrame (.eraseX16 a) { s with aL := a.setWidth 8 }

/-- `ERASE.X8`: the frame of `ERASE` of cell `a` in mode `X8` (R78, R86). -/
def execEraseX8 (a : BitVec 7) (s : State) : Result := operateFrame (.eraseX8 a) { s with aL := a.setWidth 8 }

/-- `READ.X16`: the frame of `READ` of cell `a` in mode `X16` with `RD16_AW` = 6 (R79, R86). -/
def execReadX16 (a : BitVec 6) (s : State) : Result := operateFrame (.readX16 a) { s with aL := a.setWidth 8 }

/-- `READ.X16.A8`: the frame of `READ` with all eight address bits in mode `X16` with `RD16_AW` = 8 (R79, R86). -/
def execReadX16A8 (a : BitVec 8) (s : State) : Result := operateFrame (.readX16A8 a) { s with aL := a }

/-- `READ.X8`: the frame of `READ` of cell `a` in mode `X8` (R79, R86). -/
def execReadX8 (a : BitVec 7) (s : State) : Result := operateFrame (.readX8 a) { s with aL := a.setWidth 8 }

end Sys2Proof.Machine
end

