-- ==== Sys2Proof/Machine/Dispatch.lean ====
section
/-! DEFINITION. The meaning of each instruction, one arm per constructor. -/

namespace Sys2Proof.Machine

def exec (i : Instr) (s : State) : Host.Outcome State Fault Refusal :=
  match i with
  | .construct => Sys2Proof.Machine.execConstruct s
  | .setmode m => Sys2Proof.Machine.execSetmode m s
  | .ewen => Sys2Proof.Machine.execEwen s
  | .ewds => Sys2Proof.Machine.execEwds s
  | .query => Sys2Proof.Machine.execQuery s
  | .eral => Sys2Proof.Machine.execEral s
  | .wral v => Sys2Proof.Machine.execWral v s
  | .write a v => Sys2Proof.Machine.execWrite a v s
  | .erase a => Sys2Proof.Machine.execErase a s
  | .read a => Sys2Proof.Machine.execRead a s
  | .ewdsX16 dc => Sys2Proof.Machine.execEwdsX16 dc s
  | .ewdsX8 dc => Sys2Proof.Machine.execEwdsX8 dc s
  | .wralX16 dc d => Sys2Proof.Machine.execWralX16 dc d s
  | .wralX8 dc d => Sys2Proof.Machine.execWralX8 dc d s
  | .eralX16 dc => Sys2Proof.Machine.execEralX16 dc s
  | .eralX8 dc => Sys2Proof.Machine.execEralX8 dc s
  | .ewenX16 dc => Sys2Proof.Machine.execEwenX16 dc s
  | .ewenX8 dc => Sys2Proof.Machine.execEwenX8 dc s
  | .writeX16 a d => Sys2Proof.Machine.execWriteX16 a d s
  | .writeX8 a d => Sys2Proof.Machine.execWriteX8 a d s
  | .eraseX16 a => Sys2Proof.Machine.execEraseX16 a s
  | .eraseX8 a => Sys2Proof.Machine.execEraseX8 a s
  | .readX16 a => Sys2Proof.Machine.execReadX16 a s
  | .readX16A8 a => Sys2Proof.Machine.execReadX16A8 a s
  | .readX8 a => Sys2Proof.Machine.execReadX8 a s

end Sys2Proof.Machine
end

