-- ==== Sys2Proof/Machine/Step.lean ====
section
/-! DEFINITION. One step of the machine (log 4), and placing an instruction where the next step takes it (log 1). -/

namespace Sys2Proof.Machine

/-- One step. A busy engine goes on with its operation (R174, R175, R178). An idle engine takes the operation the host presents
(R170, R173); with none presented it waits (R221, log 21). -/
def step (s : State) : Host.Outcome State Fault Refusal :=
  if s.busy then resume s
  else
    match s.host with
    | [] => .next s
    | p :: rest =>
      match decode p with
      | .instr i => exec i { s with host := rest }
      | .rejected why => .refused (.notAnInstruction why)

/-- The mode a presented instruction needs: a wire frame's own, else the present one. -/
def modeFor (p : Presented) (m : Mode) : Mode :=
  match decode p with
  | .instr i => i.frameMode.getD m
  | .rejected _ => m

/-- The `RD16_AW` a presented instruction needs: an `X16` `READ` frame's own, else the present one. -/
def readWidthFor (p : Presented) (w : ReadAddrWidth) : ReadAddrWidth :=
  match decode p with
  | .instr i => i.frameReadWidth.getD w
  | .rejected _ => w

/-- `s` with the opcode table's word `w` presented next (log 1): the engine idle, the host presenting it, and for a wire frame the mode and
the `RD16_AW` in which the engine emits that frame. -/
def State.withFetchWord (s : State) (nbits w : Nat) : State :=
  { s with
    host := [tablePresented nbits w]
    busy := false
    mode := modeFor (tablePresented nbits w) s.mode
    cfg := { s.cfg with rd16aw := readWidthFor (tablePresented nbits w) s.cfg.rd16aw } }

end Sys2Proof.Machine
end

