-- ==== Sys2Proof/Machine/Trace.lean ====
section
/-! DEFINITION. Traces as the spec's rules write them: the events of `TX` (R100), `RX` (R102) and of a command up to its last frame bit,
and the derived views of a trace (R7): `obs`, `writes`, `transitions`, `frames`, and the clock pulses of R87. -/

namespace Sys2Proof.Machine

/-- The events of `TX(v, n)` (R100). -/
def txEvents (T : Nat) (v : Word) : Nat → List Event
  | 0 => []
  | i + 1 =>
    [.W .DI (v.getLsbD i), .D T, .W .SK true, .D T, .W .SK false, .W .DI false] ++ txEvents T v i

/-- The events of `RX(n)` when the samples are `bits` (R102). -/
def rxEvents (T : Nat) : List Level → List Event
  | [] => []
  | b :: rest => [.D T, .W .SK true, .D T, .S b, .W .SK false] ++ rxEvents T rest

/-- The events of a frame from the rise of `CS` to the last bit of its command field (R71, R107). -/
def commandEvents (T : Nat) (m : Mode) (cf : Word) : List Event :=
  [.W .CS true] ++ txEvents T 1 1 ++ txEvents T cf (OW m)

/-- The events of a `READ` up to its last address bit (R160). -/
def readCommandEvents (T : Nat) (w : ReadAddrWidth) (m : Mode) (a : Addr) : List Event :=
  match m with
  | .X16 => [.W .CS true] ++ txEvents T 1 1 ++ txEvents T 2 2 ++ txEvents T (readAddrField w a) (readAddrBits w)
  | .X8 => commandEvents T .X8 (addrField .X8 OPC_READ a)

/-- The events of a mutating operation from the rise of `CS` to its last frame bit (R140 to R144). -/
def mutatingCommand (T : Nat) (m : Mode) (op : Op) (a : Addr) (v : Word) : List Event :=
  match op with
  | .eral => commandEvents T m (codeField m CC_ERAL)
  | .wral => commandEvents T m (codeField m CC_WRAL) ++ txEvents T (dataField m v) (DW m)
  | .write => commandEvents T m (addrField m OPC_WRITE a) ++ txEvents T (dataField m v) (DW m)
  | .erase => commandEvents T m (addrField m OPC_ERASE a)
  | .construct | .setmode | .ewen | .ewds | .query | .read => []

/-- `obs(trace)`: the trace without its `D` events (R7). -/
def obs : List Event → List Event
  | [] => []
  | .D _ :: es => obs es
  | .CFG p d :: es => .CFG p d :: obs es
  | .W p v :: es => .W p v :: obs es
  | .S b :: es => .S b :: obs es

/-- `writes(trace)`: the `W` events only (R7). -/
def writes : List Event → List Event
  | [] => []
  | .D _ :: es => writes es
  | .CFG _ _ :: es => writes es
  | .W p v :: es => .W p v :: writes es
  | .S _ :: es => writes es

/-- The samples of a trace, in order. -/
def samples : List Event → List Level
  | [] => []
  | .D _ :: es => samples es
  | .CFG _ _ :: es => samples es
  | .W _ _ :: es => samples es
  | .S b :: es => b :: samples es

/-- The levels of the three output lines. -/
structure Lines where
  CS : Level
  SK : Level
  DI : Level
deriving DecidableEq, Repr

/-- The level of one line. -/
def Lines.get (l : Lines) : OutPin → Level
  | .CS => l.CS
  | .SK => l.SK
  | .DI => l.DI

/-- The lines after a write. -/
def Lines.put (l : Lines) (v : Level) : OutPin → Lines
  | .CS => { l with CS := v }
  | .SK => { l with SK := v }
  | .DI => { l with DI := v }

/-- The lines as the latches drive them (R23). -/
def State.lines (s : State) : Lines := { CS := s.cs, SK := s.sk, DI := s.di }

/-- The lines after a trace. -/
def linesAfter (l : Lines) : List Event → Lines
  | [] => l
  | .D _ :: es => linesAfter l es
  | .CFG _ _ :: es => linesAfter l es
  | .W p v :: es => linesAfter (l.put v p) es
  | .S _ :: es => linesAfter l es

/-- `transitions(trace, L0)`: the writes that change their line's level (R7, C6). -/
def transitions (l : Lines) : List Event → List (OutPin × Level)
  | [] => []
  | .D _ :: es => transitions l es
  | .CFG _ _ :: es => transitions l es
  | .W p v :: es => if l.get p = v then transitions l es else (p, v) :: transitions (l.put v p) es
  | .S _ :: es => transitions l es

/-- How many transitions of one line a trace makes. -/
def transitionsOf (p : OutPin) (l : Lines) (es : List Event) : Nat := ((transitions l es).filter (fun x => x.1 = p)).length

/-- `DI` levels at the `W(SK, 1)` events, whatever `CS` is, `di` being the level of `DI` before. -/
def clockedBits (di : Level) : List Event → List Level
  | [] => []
  | .D _ :: es => clockedBits di es
  | .CFG _ _ :: es => clockedBits di es
  | .W .CS _ :: es => clockedBits di es
  | .W .SK true :: es => di :: clockedBits di es
  | .W .SK false :: es => clockedBits di es
  | .W .DI v :: es => clockedBits v es
  | .S _ :: es => clockedBits di es

/-- `frames(trace)` (R7): for each interval in which `CS` is 1, the `DI` levels at its `W(SK, 1)` events. `cs`, `di` are the levels before
the trace, `cur` the bits of the interval already open. -/
def framesFrom (cs di : Level) (cur : List Level) : List Event → List (List Level)
  | [] => if cs then [cur] else []
  | .D _ :: es => framesFrom cs di cur es
  | .CFG _ _ :: es => framesFrom cs di cur es
  | .S _ :: es => framesFrom cs di cur es
  | .W .CS true :: es => framesFrom true di (if cs then cur else []) es
  | .W .CS false :: es => if cs then cur :: framesFrom false di [] es else framesFrom false di [] es
  | .W .SK true :: es => framesFrom cs di (if cs then cur ++ [di] else cur) es
  | .W .SK false :: es => framesFrom cs di cur es
  | .W .DI v :: es => framesFrom cs v cur es

/-- What the chip receives in a trace that starts from the lines `l`, `CS` being low (R7). -/
def framesOf (l : Lines) (es : List Event) : List (List Level) := framesFrom l.CS l.DI [] es

/-- Clock pulses of a trace: its `W(SK, 1)` events (R87). -/
def pulses : List Event → Nat
  | [] => 0
  | .D _ :: es => pulses es
  | .CFG _ _ :: es => pulses es
  | .S _ :: es => pulses es
  | .W .CS _ :: es => pulses es
  | .W .SK true :: es => pulses es + 1
  | .W .SK false :: es => pulses es
  | .W .DI _ :: es => pulses es

end Sys2Proof.Machine
end

