-- ==== Sys2Proof/Safety.lean ====
section
/-! DEFINITION. The terms claims are stated in: when an instruction may be presented, what a state that waits for the chip is, the invariants
of the machine, and what an instruction's operands and wire frame are. -/

namespace Sys2Proof.Machine

/-- The engine can accept an operation: idle and constructed (R170, R222). -/
def Ready (s : State) : Prop := s.busy = false ∧ s.constructed = true

/-- The engine would emit instruction `i`'s wire frame in `s`: its don't-care bits are 0 (R82), it is of the present mode (R84) and of the
present `RD16_AW` (R79). True of every host operation. -/
def Presentable (i : Instr) (s : State) : Prop :=
  i.wf = true ∧ (∀ m, i.frameMode = some m → s.mode = m) ∧ (∀ w, i.frameReadWidth = some w → s.cfg.rd16aw = w)

/-- The address operand of an instruction; 0 where it has none. -/
def addrOf : Instr → Addr
  | .write a _ => a
  | .erase a => a
  | .read a => a
  | .writeX16 a _ => a.setWidth 8
  | .writeX8 a _ => a.setWidth 8
  | .eraseX16 a => a.setWidth 8
  | .eraseX8 a => a.setWidth 8
  | .readX16 a => a.setWidth 8
  | .readX16A8 a => a
  | .readX8 a => a.setWidth 8
  | .construct | .setmode _ | .ewen | .ewds | .query | .eral | .wral _ | .ewdsX16 _ | .ewdsX8 _ | .wralX16 _ _ | .wralX8 _ _
  | .eralX16 _ | .eralX8 _ | .ewenX16 _ | .ewenX8 _ => 0

/-- The value operand of an instruction; 0 where it has none. -/
def valueOf : Instr → Word
  | .wral v => v
  | .write _ v => v
  | .wralX16 _ d => d
  | .wralX8 _ d => d.setWidth 16
  | .writeX16 _ d => d
  | .writeX8 _ d => d.setWidth 16
  | .construct | .setmode _ | .ewen | .ewds | .query | .eral | .erase _ | .read _ | .ewdsX16 _ | .ewdsX8 _ | .eralX16 _ | .eralX8 _
  | .ewenX16 _ | .ewenX8 _ | .eraseX16 _ | .eraseX8 _ | .readX16 _ | .readX16A8 _ | .readX8 _ => 0

/-- The mode operand: `SETMODE`'s, and for every other instruction the mode latched before. -/
def modeOf : Instr → Mode → Mode
  | .setmode m, _ => m
  | .construct, m | .ewen, m | .ewds, m | .query, m | .eral, m | .wral _, m | .write _ _, m | .erase _, m | .read _, m
  | .ewdsX16 _, m | .ewdsX8 _, m | .wralX16 _ _, m | .wralX8 _ _, m | .eralX16 _, m | .eralX8 _, m | .ewenX16 _, m | .ewenX8 _, m
  | .writeX16 _ _, m | .writeX8 _ _, m | .eraseX16 _, m | .eraseX8 _, m | .readX16 _, m | .readX16A8 _, m | .readX8 _, m => m

/-- `s` with the transient registers of `t` (R26, R27: `OP`, `A_L`, `V_L`, the latched `m`, `UPC`, `TSR`, `TCNT`), which are meaningless
between operations. A result `t = (s.withTransients t) with …` says every other field. -/
def State.withTransients (s t : State) : State :=
  { s with op := t.op, aL := t.aL, vL := t.vL, mL := t.mL, upc := t.upc, tsr := t.tsr, tcnt := t.tcnt }

/-- The engine is inside `WAIT()`, about to poll: `CS` = 1, `SK` = `DI` = 0, the poll and the last `W(CS, 0)` to come (R104, R175). -/
def Waiting (s : State) : Prop :=
  s.busy = true ∧ s.op.mutating = true ∧ s.constructed = true ∧ (progOf s).drop s.upc = [.poll, .write .CS false] ∧
    s.upc ≤ (progOf s).length ∧ s.cs = true ∧ s.sk = false ∧ s.di = false

/-- The levels `RESET_LEVEL` are 0, 0, 0, as the spec takes them (D2). -/
def ResetLevelsLow (s : State) : Prop := s.cfg.resetCS = false ∧ s.cfg.resetSK = false ∧ s.cfg.resetDI = false

/-- R29: idle and constructed, the three latches are 0; and a busy engine is waiting for the chip (log 4). -/
def PinsInv (s : State) : Prop :=
  ResetLevelsLow s ∧ (s.busy = false → s.constructed = true → s.cs = false ∧ s.sk = false ∧ s.di = false) ∧
    (s.busy = true → Waiting s)

/-- R24: after construction the directions are `out`, `out`, `out`, `in`. -/
def DirsInv (s : State) : Prop :=
  s.constructed = true → s.dir = { CS := .output, SK := .output, DI := .output, DO := .input }

/-- A run that goes on: the step neither faults nor is refused. -/
def Safe (r : Result) : Prop := ∃ t, r = .next t

/-- The operands latched for an instruction (R170, R173). -/
def latched (i : Instr) (s : State) : State :=
  match i with
  | .setmode m => { s with mL := m }
  | .wral v => { s with vL := v }
  | .write a v => { s with aL := a, vL := v }
  | .erase a => { s with aL := a }
  | .read a => { s with aL := a }
  | .wralX16 _ d => { s with vL := d }
  | .wralX8 _ d => { s with vL := d.setWidth 16 }
  | .writeX16 a d => { s with aL := a.setWidth 8, vL := d }
  | .writeX8 a d => { s with aL := a.setWidth 8, vL := d.setWidth 16 }
  | .eraseX16 a => { s with aL := a.setWidth 8 }
  | .eraseX8 a => { s with aL := a.setWidth 8 }
  | .readX16 a => { s with aL := a.setWidth 8 }
  | .readX16A8 a => { s with aL := a }
  | .readX8 a => { s with aL := a.setWidth 8 }
  | .construct | .ewen | .ewds | .query | .eral | .ewdsX16 _ | .ewdsX8 _ | .eralX16 _ | .eralX8 _ | .ewenX16 _ | .ewenX8 _ => s

/-- `n` steps of the spec's own size (R174, R175, R178), stopping at a fault. -/
def seqRun : Nat → State → Result
  | 0, s => .next s
  | n + 1, s =>
    match seqStep s with
    | .next t => seqRun n t
    | .fault r => .fault r
    | .refused r => .refused r

/-- `n` steps of the machine, stopping at the first fault or refusal. -/
def runSteps : Nat → State → Result
  | 0, s => .next s
  | n + 1, s =>
    match step s with
    | .next t => runSteps n t
    | .fault r => .fault r
    | .refused r => .refused r

/-- The wire-frame row an operation puts on the wire in a mode (R73 to R79), if it has one; `w` is `RD16_AW`. -/
def frameRow (op : Op) (w : ReadAddrWidth) (m : Mode) (a : Addr) (v : Word) : Option Instr :=
  match op, m with
  | .construct, _ | .setmode, _ | .query, _ => none
  | .ewen, .X16 => some (.ewenX16 0)
  | .ewen, .X8 => some (.ewenX8 0)
  | .ewds, .X16 => some (.ewdsX16 0)
  | .ewds, .X8 => some (.ewdsX8 0)
  | .eral, .X16 => some (.eralX16 0)
  | .eral, .X8 => some (.eralX8 0)
  | .wral, .X16 => some (.wralX16 0 v)
  | .wral, .X8 => some (.wralX8 0 (v.setWidth 8))
  | .write, .X16 => some (.writeX16 (a.setWidth 6) v)
  | .write, .X8 => some (.writeX8 (a.setWidth 7) (v.setWidth 8))
  | .erase, .X16 => some (.eraseX16 (a.setWidth 6))
  | .erase, .X8 => some (.eraseX8 (a.setWidth 7))
  | .read, .X16 => match w with
    | .six => some (.readX16 (a.setWidth 6))
    | .eight => some (.readX16A8 a)
  | .read, .X8 => some (.readX8 (a.setWidth 7))

end Sys2Proof.Machine
end

