-- ==== Sys2Proof/Certificates/Slice0/Obligations.lean ====
section
/-! DEFINITION. The statements for the provers. `t = { s.withTransients t with … }` says every field of `t` but the transient
registers of R26 and R27, which are meaningless between operations. -/

open Sys2Proof Sys2Proof.Machine

/-! ### Encoding and decoding -/

/-- R70, R73 to R79, R83: decoding what an instruction is presented as gives the instruction back, every operand at every value. -/
def Obligations.DecodeInvertsEncode : Prop :=
  ∀ i : Instr, decode (encode i) = .instr i

/-- R71, R82, R86: a frame that decodes is, bit for bit, the frame of the instruction it decodes to. -/
def Obligations.FrameDecodingLosesNoBit : Prop :=
  ∀ (bits : List Level) (i : Instr), decode (.frame bits) = .instr i → encode i = .frame bits

/-- R70, R83: the command codes (D6, log 20), whatever the unused ports hold (log 20); codes 10 to 15 are no operation. That `MODE_IN` 0 is
`X16` and 1 is `X8` is the choice of R22 and R28 (D8, log 23). -/
def Obligations.CommandCodesDecode : Prop :=
  ∀ (cmd : BitVec 4) (addr : Addr) (val : Word) (modeIn : Level),
    decode (.command 0 addr val modeIn) = .instr .construct ∧
    decode (.command 1 addr val false) = .instr (.setmode .X16) ∧
    decode (.command 1 addr val true) = .instr (.setmode .X8) ∧
    decode (.command 2 addr val modeIn) = .instr .ewen ∧
    decode (.command 3 addr val modeIn) = .instr .ewds ∧
    decode (.command 4 addr val modeIn) = .instr .query ∧
    decode (.command 5 addr val modeIn) = .instr .eral ∧
    decode (.command 6 addr val modeIn) = .instr (.wral val) ∧
    decode (.command 7 addr val modeIn) = .instr (.write addr val) ∧
    decode (.command 8 addr val modeIn) = .instr (.erase addr) ∧
    decode (.command 9 addr val modeIn) = .instr (.read addr) ∧
    (10 ≤ cmd.toNat → decode (.command cmd addr val modeIn) = .rejected (.reservedCode cmd))

/-- Frames written out bit by bit from R73 to R79 decode to what they stand for. -/
def Obligations.SpecFramesDecode : Prop :=
  -- `1 01000101 0001001000110100`, R77's worked example
  decode (.frame [true, false, true, false, false, false, true, false, true,
    false, false, false, true, false, false, true, false, false, false, true, true, false, true, false, false])
      = .instr (.writeX16 5 0x1234) ∧
  -- `1 001100000`, R73
  decode (.frame [true, false, false, true, true, false, false, false, false, false]) = .instr (.ewenX8 0) ∧
  -- `1 00000000`, R74
  decode (.frame [true, false, false, false, false, false, false, false, false]) = .instr (.ewdsX16 0) ∧
  -- `1 110010000`, V-ER4
  decode (.frame [true, true, true, false, false, true, false, false, false, false]) = .instr (.eraseX8 0x10) ∧
  -- `1 10 11000101`, R79 with `RD16_AW` = 8
  decode (.frame [true, true, false, true, true, false, false, false, true, false, true]) = .instr (.readX16A8 0xC5)

/-- R86's table: in each mode every value whose top bit is set matches exactly one of the seven rows; and the row it matches is the one it
decodes to: alone or with a data field, the value is an instruction of that row's operation and of that mode. -/
def Obligations.FrameTableExclusiveAndComplete : Prop :=
  (let rows : List (Op × BitVec 9 × BitVec 9) :=
      [(.ewds, 0x100#9, 0x1F0#9), (.wral, 0x110#9, 0x1F0#9), (.eral, 0x120#9, 0x1F0#9), (.ewen, 0x130#9, 0x1F0#9),
        (.write, 0x140#9, 0x1C0#9), (.read, 0x180#9, 0x1C0#9), (.erase, 0x1C0#9, 0x1C0#9)]
    ∀ f : BitVec 9, f.getLsbD 8 = true →
      (∃! r, r ∈ rows ∧ f &&& r.2.2 = r.2.1) ∧
      ∀ r ∈ rows, f &&& r.2.2 = r.2.1 →
        ∀ d : BitVec 16, ∃ i, (decodeX16 f = .instr i ∨ decodeX16Data f d = .instr i) ∧ i.op = r.1 ∧ i.frameMode = some .X16) ∧
  (let rows : List (Op × BitVec 10 × BitVec 10) :=
      [(.ewds, 0x200#10, 0x3E0#10), (.wral, 0x220#10, 0x3E0#10), (.eral, 0x240#10, 0x3E0#10), (.ewen, 0x260#10, 0x3E0#10),
        (.write, 0x280#10, 0x380#10), (.read, 0x300#10, 0x380#10), (.erase, 0x380#10, 0x380#10)]
    ∀ f : BitVec 10, f.getLsbD 9 = true →
      (∃! r, r ∈ rows ∧ f &&& r.2.2 = r.2.1) ∧
      ∀ r ∈ rows, f &&& r.2.2 = r.2.1 →
        ∀ d : BitVec 8, ∃ i, (decodeX8 f = .instr i ∨ decodeX8Data f d = .instr i) ∧ i.op = r.1 ∧ i.frameMode = some .X8)

/-- R81 (b), R194: the address never disturbs the opcode, and the field holds the address modulo the number of cells. -/
def Obligations.AddressFieldKeepsOpcode : Prop :=
  ∀ (m : Mode) (base : Word) (a : Addr), base ∈ [OPC_WRITE, OPC_READ, OPC_ERASE] →
    addrField m base a = (base <<< SH m) + trunc (AW m) (zextAddr a) ∧
    (addrField m base a) >>> AW m = (base <<< SH m) >>> AW m ∧
    (trunc (AW m) (zextAddr a)).toNat = a.toNat % NCELL m

/-! ### Steps -/

/-- A step of an idle engine runs the instruction presented, which is taken off the host's list; nothing else is added around `exec`. -/
def Obligations.StepRunsPresentedInstruction : Prop :=
  ∀ (s : State) (p : Presented) (rest : List Presented) (i : Instr),
    s.busy = false → s.host = p :: rest → decode p = .instr i → step s = exec i { s with host := rest }

/-- R83: what decodes to nothing is refused. -/
def Obligations.ReservedCodesRefused : Prop :=
  ∀ (s : State) (cmd : BitVec 4) (addr : Addr) (val : Word) (modeIn : Level) (rest : List Presented),
    s.busy = false → 10 ≤ cmd.toNat → s.host = .command cmd addr val modeIn :: rest →
      step s = .refused (.notAnInstruction (.reservedCode cmd))

/-- R221: with nothing presented an idle engine waits (the model's choice of a step that changes nothing, log 21). -/
def Obligations.IdleEngineWaits : Prop :=
  ∀ s : State, s.busy = false → s.host = [] → step s = .next s

/-- R181: an operation presented while `BUSY = 1` is refused. -/
def Obligations.BusyEngineRefusesEveryOperation : Prop :=
  ∀ (i : Instr) (s : State), s.busy = true → exec i s = .refused .busy

/-- R173, R207, R222: before the first construction every operation but `CONSTRUCT` is refused. -/
def Obligations.UnconstructedEngineRefuses : Prop :=
  ∀ (i : Instr) (s : State), s.busy = false → s.constructed = false → i.op ≠ .construct → exec i s = .refused .notConstructed

/-- R195, R207: bad pins are refused at construction. -/
def Obligations.BadPinsRefused : Prop :=
  ∀ s : State, s.busy = false → s.cfg.pinsOk = false → exec .construct s = .refused .badPins

/-- R79, R82, R84 with the model's choice of log 5 and log 6: a frame the engine does not emit now is refused, by name. -/
def Obligations.FrameNotEmittedRefused : Prop :=
  ∀ (i : Instr) (s : State), Ready s →
    (i.wf = false → exec i s = .refused .dontCareNotZero) ∧
    (∀ m, i.wf = true → i.frameMode = some m → s.mode ≠ m → exec i s = .refused .frameOfOtherMode) ∧
    (∀ m w, i.frameMode = some m → s.mode = m → i.frameReadWidth = some w → s.cfg.rd16aw ≠ w →
      exec i s = .refused .readFrameOfOtherWidth)

/-! ### Reset -/

/-- R33: the reset state, in the fields R33 gives a value (the levels and `BUSY` are the spec's decisions D2 and D20). -/
def Obligations.ResetState : Prop :=
  State.reset.ew = false ∧ State.reset.mode = .X16 ∧
    State.reset.dir = { CS := .output, SK := .output, DI := .output, DO := .input } ∧
    State.reset.cs = false ∧ State.reset.sk = false ∧ State.reset.di = false ∧ State.reset.busy = false

/-- The reset state meets the machine's invariants (R24, R29). -/
def Obligations.ResetMeetsInvariants : Prop := PinsInv State.reset ∧ DirsInv State.reset

/-! ### What each operation does -/

/-- R120, R220: `CONSTRUCT` completes from every idle state with good pins, constructed or not. -/
def Obligations.ConstructResult : Prop :=
  ∀ s : State, s.busy = false → s.cfg.pinsOk = true →
    ∃ t, exec .construct s = .next t ∧
      t = { s.withTransients t with
        ew := false, mode := .X16, cs := s.cfg.resetCS, sk := s.cfg.resetSK, di := s.cfg.resetDI,
        dir := { CS := .output, SK := .output, DI := .output, DO := .input }, constructed := true, ret := .nothing,
        trace := s.trace ++ [.CFG .CS .output, .CFG .SK .output, .CFG .DI .output, .CFG .DO .input] } ∧
      t.tsr = s.tsr ∧ t.tcnt = s.tcnt

/-- R121: `SETMODE m` is host code 1 with its operand on `MODE_IN`, 0 for `X16` and 1 for `X8` by the choice of R22 (D8, log 23); it sets `MODE` and nothing else, with the empty trace, for every mode
before. -/
def Obligations.SetmodeResult : Prop :=
  (∀ (a : Addr) (v : Word), decode (.command 1 a v false) = .instr (.setmode .X16) ∧
    decode (.command 1 a v true) = .instr (.setmode .X8)) ∧
  ∀ (m : Mode) (s : State), Ready s →
    ∃ t, exec (.setmode m) s = .next t ∧ t = { s.withTransients t with mode := m, ret := .nothing } ∧
      t.tsr = s.tsr ∧ t.tcnt = s.tcnt

/-- R130, R73: `EWEN`, host code 2, and its two frames, whatever `EW` was. No sample is taken: the environment's script is as before. `EW` is written as
the last act: after any number of steps of the spec's own size (R174, R178), while `BUSY = 1`, it is what it was. -/
def Obligations.EwenResult : Prop :=
  (∀ (a : Addr) (v : Word) (b : Level), decode (.command 2 a v b) = .instr .ewen) ∧
  ∀ (i : Instr) (s : State), i.op = .ewen → Ready s → Presentable i s →
    ∃ t, exec i s = .next t ∧
      t = { s.withTransients t with
        ew := true, cs := false, sk := false, di := false, ret := .nothing,
        trace := s.trace ++ (commandEvents s.cfg.tHold s.mode (CC_EWEN <<< SH s.mode) ++ [.W .CS false]) } ∧
      (writes (commandEvents s.cfg.tHold s.mode (CC_EWEN <<< SH s.mode) ++ [.W .CS false])).length = 2 + 4 * (1 + OW s.mode) ∧
      ∀ n u, seqRun n (acceptStep i.op (latched i s)) = .next u → u.busy = true → u.ew = s.ew

/-- R131, R74: `EWDS`, host code 3, and its two frames, whatever `EW` was; `EW` is written as the last act. -/
def Obligations.EwdsResult : Prop :=
  (∀ (a : Addr) (v : Word) (b : Level), decode (.command 3 a v b) = .instr .ewds) ∧
  ∀ (i : Instr) (s : State), i.op = .ewds → Ready s → Presentable i s →
    ∃ t, exec i s = .next t ∧
      t = { s.withTransients t with
        ew := false, cs := false, sk := false, di := false, ret := .nothing,
        trace := s.trace ++ (commandEvents s.cfg.tHold s.mode (CC_EWDS <<< SH s.mode) ++ [.W .CS false]) } ∧
      (writes (commandEvents s.cfg.tHold s.mode (CC_EWDS <<< SH s.mode) ++ [.W .CS false])).length = 2 + 4 * (1 + OW s.mode) ∧
      ∀ n u, seqRun n (acceptStep i.op (latched i s)) = .next u → u.busy = true → u.ew = s.ew

/-- R132: `QUERY` is host code 4; it returns `EW` and does nothing else. -/
def Obligations.QueryResult : Prop :=
  (∀ (a : Addr) (v : Word) (b : Level), decode (.command 4 a v b) = .instr .query) ∧
  ∀ s : State, Ready s →
    ∃ t, exec .query s = .next t ∧ t = { s.withTransients t with ret := .bit s.ew } ∧ t.tsr = s.tsr ∧ t.tcnt = s.tcnt

/-- R133, R176, R191: with `EW = 0` each of the four mutating operations, in each of its forms, completes at once: no event, no sample, nothing
but the latches of the accept step and the (empty) return value. -/
def Obligations.GatedMutatingIsSilent : Prop :=
  ∀ (i : Instr) (s : State), i.op.mutating = true → Ready s → Presentable i s → s.ew = false →
    ∃ t, exec i s = .next t ∧ t = { s.withTransients t with ret := .nothing } ∧ t.tsr = s.tsr ∧ t.tcnt = s.tcnt

/-- R140, R141, R75: `ERAL` and its two frames with `EW = 1`, when the chip is ready at the first sample. -/
def Obligations.EralResult : Prop :=
  ∀ (i : Instr) (s : State), i.op = .eral → Ready s → Presentable i s → s.ew = true → s.nextLevel = s.cfg.readyLevel →
    ∃ t, exec i s = .next t ∧
      t = { s.takeLevel.withTransients t with
        cs := false, sk := false, di := false, ret := .nothing,
        trace := s.trace ++ commandEvents s.cfg.tHold s.mode (CC_ERAL <<< SH s.mode)
          ++ [.W .CS false, .W .CS true, .S s.cfg.readyLevel, .W .CS false] }

/-- R140, R142, R76: `WRAL V` and its two frames with `EW = 1`, when the chip is ready at the first sample. -/
def Obligations.WralResult : Prop :=
  ∀ (i : Instr) (s : State), i.op = .wral → Ready s → Presentable i s → s.ew = true → s.nextLevel = s.cfg.readyLevel →
    ∃ t, exec i s = .next t ∧
      t = { s.takeLevel.withTransients t with
        cs := false, sk := false, di := false, ret := .nothing,
        trace := s.trace ++ commandEvents s.cfg.tHold s.mode (CC_WRAL <<< SH s.mode)
          ++ txEvents s.cfg.tHold (trunc (DW s.mode) (valueOf i)) (DW s.mode)
          ++ [.W .CS false, .W .CS true, .S s.cfg.readyLevel, .W .CS false] } ∧
      t.op = .wral ∧ t.vL = valueOf i

/-- R140, R143, R77: `WRITE A, V` and its two frames with `EW = 1`, when the chip is ready at the first sample. -/
def Obligations.WriteResult : Prop :=
  ∀ (i : Instr) (s : State), i.op = .write → Ready s → Presentable i s → s.ew = true → s.nextLevel = s.cfg.readyLevel →
    ∃ t, exec i s = .next t ∧
      t = { s.takeLevel.withTransients t with
        cs := false, sk := false, di := false, ret := .nothing,
        trace := s.trace
          ++ commandEvents s.cfg.tHold s.mode ((OPC_WRITE <<< SH s.mode) ||| trunc (AW s.mode) (zextAddr (addrOf i)))
          ++ txEvents s.cfg.tHold (trunc (DW s.mode) (valueOf i)) (DW s.mode)
          ++ [.W .CS false, .W .CS true, .S s.cfg.readyLevel, .W .CS false] } ∧
      t.op = .write ∧ t.aL = addrOf i ∧ t.vL = valueOf i

/-- R140, R144, R78: `ERASE A` and its two frames with `EW = 1`, when the chip is ready at the first sample. -/
def Obligations.EraseResult : Prop :=
  ∀ (i : Instr) (s : State), i.op = .erase → Ready s → Presentable i s → s.ew = true → s.nextLevel = s.cfg.readyLevel →
    ∃ t, exec i s = .next t ∧
      t = { s.takeLevel.withTransients t with
        cs := false, sk := false, di := false, ret := .nothing,
        trace := s.trace
          ++ commandEvents s.cfg.tHold s.mode ((OPC_ERASE <<< SH s.mode) ||| trunc (AW s.mode) (zextAddr (addrOf i)))
          ++ [.W .CS false, .W .CS true, .S s.cfg.readyLevel, .W .CS false] } ∧
      t.op = .erase ∧ t.aL = addrOf i

/-- R104, R140, R175: a mutating operation whose first sample is not `READY_LEVEL` is left inside its wait, having sent its frame and
taken that one sample; the architectural flags are as before. -/
def Obligations.MutatingWaitsForChip : Prop :=
  ∀ (i : Instr) (s : State), i.op.mutating = true → Ready s → Presentable i s → s.ew = true → s.nextLevel ≠ s.cfg.readyLevel →
    ∃ t, exec i s = .next t ∧ Waiting t ∧ t.op = i.op ∧
      t = { s.takeLevel.withTransients t with
        busy := true, cs := true, sk := false, di := false,
        trace := s.trace ++ mutatingCommand s.cfg.tHold s.mode i.op (addrOf i) (valueOf i)
          ++ [.W .CS false, .W .CS true, .S s.nextLevel] }

/-- R160, R161, R79: `READ A` and its three frames, for every `EW`, in both modes and for both values of `RD16_AW`: the frame, then
`DW` samples, first sample most significant, returned in `RSR` with zeros above. -/
def Obligations.ReadResult : Prop :=
  ∀ (i : Instr) (s : State), i.op = .read → Ready s → Presentable i s →
    ∃ t, exec i s = .next t ∧
      t = { (State.takeLevels (DW s.mode) s).withTransients t with
        cs := false, sk := false, di := false,
        rsr := ofSamples (State.levels (DW s.mode) s), ret := .value (ofSamples (State.levels (DW s.mode) s)),
        trace := s.trace ++ readCommandEvents s.cfg.tHold s.cfg.rd16aw s.mode (addrOf i)
          ++ rxEvents s.cfg.tHold (State.levels (DW s.mode) s) ++ [.W .CS false] } ∧
      t.op = .read ∧ t.aL = addrOf i ∧ t.rsr.toNat < 2 ^ DW s.mode

/-! ### The completion wait -/

/-- R104, R175, R178: one step of an engine that waits. A sample that is `READY_LEVEL` ends the operation; another is only recorded. That one
step performs the poll, the last `W(CS, 0)` and the complete step is the model's choice of what a step is (log 4). -/
def Obligations.WaitingStep : Prop :=
  ∀ s : State, Waiting s →
    (s.nextLevel = s.cfg.readyLevel →
      ∃ t, step s = .next t ∧
        t = { s.takeLevel.withTransients t with
          cs := false, busy := false, ret := .nothing, trace := s.trace ++ [.S s.cfg.readyLevel, .W .CS false] } ∧
        t.tsr = s.tsr ∧ t.tcnt = s.tcnt) ∧
    (s.nextLevel ≠ s.cfg.readyLevel →
      step s = .next { s.takeLevel with trace := s.trace ++ [.S s.nextLevel] })

/-- R104: a mutating operation against a chip that is not ready for `k` samples and then ready ends after `k` more steps, with exactly `k + 1`
samples in its trace. The number of steps is the model's (log 4); the events are the spec's. -/
def Obligations.WaitEndsAtReadySample : Prop :=
  ∀ (i : Instr) (s : State) (k : Nat) (rest : List Level), i.op.mutating = true → Ready s → Presentable i s → s.ew = true →
    s.doScript = List.replicate k (!s.cfg.readyLevel) ++ s.cfg.readyLevel :: rest →
    ∃ t u, exec i s = .next t ∧ runSteps k t = .next u ∧
      u = { s.withTransients u with
        cs := false, sk := false, di := false, ret := .nothing, doScript := rest,
        trace := s.trace ++ mutatingCommand s.cfg.tHold s.mode i.op (addrOf i) (valueOf i) ++ [.W .CS false, .W .CS true]
          ++ List.replicate k (.S (!s.cfg.readyLevel)) ++ [.S s.cfg.readyLevel, .W .CS false] }

/-- R105: against a chip that shows the other level at every sample the operation never returns: after any number of steps it is still
inside its wait, with `CS = 1`, having only sampled. The steps counted are the model's, one poll each (log 4). -/
def Obligations.HangNeverReturns : Prop :=
  ∀ (i : Instr) (s : State) (k : Nat) (rest : List Level), i.op.mutating = true → Ready s → Presentable i s → s.ew = true →
    s.doScript = List.replicate (k + 1) (!s.cfg.readyLevel) ++ rest →
    ∃ t u, exec i s = .next t ∧ runSteps k t = .next u ∧ Waiting u ∧ u.doScript = rest ∧
      u.trace = t.trace ++ List.replicate k (.S (!s.cfg.readyLevel)) ∧ u.ew = s.ew ∧ u.mode = s.mode ∧ u.ret = s.ret

/-! ### Rules over all instructions and all steps -/

/-- R30: who may write what. For an operation that waits the pin columns speak of its end (`MutatingWaitsForChip` says where it is). -/
def Obligations.WhoMayWriteWhat : Prop :=
  ∀ (i : Instr) (s t : State), exec i s = .next t →
    (t.ew = match i.op with
      | .construct => false
      | .ewen => true
      | .ewds => false
      | _ => s.ew) ∧
    (t.mode = match i with
      | .construct => .X16
      | .setmode m => m
      | _ => s.mode) ∧
    (t.dir = match i.op with
      | .construct => { CS := .output, SK := .output, DI := .output, DO := .input }
      | _ => s.dir) ∧
    (i.op = .construct → t.cs = s.cfg.resetCS ∧ t.sk = s.cfg.resetSK ∧ t.di = s.cfg.resetDI) ∧
    (i.op = .setmode ∨ i.op = .query ∨ (i.op.mutating = true ∧ s.ew = false) → t.cs = s.cs ∧ t.sk = s.sk ∧ t.di = s.di) ∧
    (i.op = .ewen ∨ i.op = .ewds ∨ i.op = .read ∨ (i.op.mutating = true ∧ s.ew = true) →
      t.busy = false → t.cs = false ∧ t.sk = false ∧ t.di = false) ∧
    (i.op = .construct ∨ i.op = .setmode ∨ i.op = .query ∨ (i.op.mutating = true ∧ s.ew = false) →
      t.tsr = s.tsr ∧ t.tcnt = s.tcnt) ∧
    (i.op ≠ .read → t.rsr = s.rsr) ∧
    (i.op = .read → t.rsr = ofSamples (State.levels (DW s.mode) s))

/-- R26, R27, R173 and the model's choices of log 14 and log 15: what the registers that have no meaning between operations hold after an
instruction. `OP` and the latches of the operands it has are written at acceptance, the others kept; `UPC` ends at the length of the
micro-program; `TSR` is the last field sent and `TCNT` 0, when anything was sent (`WhoMayWriteWhat` says when they are kept). -/
def Obligations.TransientRegisters : Prop :=
  ∀ (i : Instr) (s t : State), exec i s = .next t →
    t.op = i.op ∧
    (t.aL = match i.op with
      | .write => addrOf i
      | .erase => addrOf i
      | .read => addrOf i
      | _ => s.aL) ∧
    (t.vL = match i.op with
      | .wral => valueOf i
      | .write => valueOf i
      | _ => s.vL) ∧
    t.mL = modeOf i s.mL ∧
    (t.busy = false → t.upc = (progOf (acceptStep i.op (latched i s))).length) ∧
    (i.op = .ewen ∨ i.op = .ewds ∨ i.op = .read ∨ (i.op.mutating = true ∧ s.ew = true) →
      t.tcnt = 0 ∧
      t.tsr = match i.op with
        | .ewen => codeField s.mode CC_EWEN
        | .ewds => codeField s.mode CC_EWDS
        | .eral => codeField s.mode CC_ERAL
        | .wral => dataField s.mode (valueOf i)
        | .write => dataField s.mode (valueOf i)
        | .erase => addrField s.mode OPC_ERASE (addrOf i)
        | .read =>
          match s.mode with
          | .X16 => readAddrField s.cfg.rd16aw (addrOf i)
          | .X8 => addrField .X8 OPC_READ (addrOf i)
        | _ => s.tsr)

/-- R21, R134 (a): in a step, `EW` rises only when that step ran `EWEN` (or the frame of it). That the engine is idle before such a step is
the model's choice of what a step is (log 4): in the spec's own step `EW` rises with `BUSY = 1` (R178). `PinsInv` takes the `RESET_LEVEL`s to
be 0 (D2, log 10). -/
def Obligations.EwRisesOnlyByEwen : Prop :=
  ∀ s t : State, PinsInv s → step s = .next t → s.ew = false → t.ew = true →
    ∃ p rest i, s.busy = false ∧ s.host = p :: rest ∧ decode p = .instr i ∧ i.op = .ewen

/-- R29 and its proof's premise D2: idle after construction, `CS` = `SK` = `DI` = 0; every step keeps it. -/
def Obligations.StepKeepsIdlePinsLow : Prop :=
  ∀ s t : State, PinsInv s → step s = .next t → PinsInv t

/-- R24: "nothing changes them afterwards". -/
def Obligations.StepKeepsDirections : Prop :=
  ∀ s t : State, PinsInv s → DirsInv s → step s = .next t → DirsInv t

/-- R4, R25: the parameters never change; R170: the host's list is only taken from. -/
def Obligations.StepKeepsConfiguration : Prop :=
  ∀ s t : State, step s = .next t → t.cfg = s.cfg ∧ (t.host = s.host ∨ ∃ p, s.host = p :: t.host)

/-- R5, R58: events are only ever added after those already performed. -/
def Obligations.StepExtendsTrace : Prop :=
  ∀ s t : State, step s = .next t → ∃ es, t.trace = s.trace ++ es

/-- R170, R190: a step of a machine that meets the invariant never faults, and ends idle or inside a completion wait (the step's extent is the model's
choice, log 4). -/
def Obligations.StepNeverFaults : Prop :=
  ∀ s : State, PinsInv s → (∀ r, step s ≠ .fault r) ∧ ∀ t, step s = .next t → t.busy = false ∨ Waiting t

/-- R160: the result of a `READ` "depends only on the sampled bits, never on `A`, `EW` or any earlier operation". -/
def Obligations.ReadDependsOnlyOnSamples : Prop :=
  ∀ (a b : Addr) (s t u v : State), s.mode = t.mode → State.levels (DW s.mode) s = State.levels (DW t.mode) t →
    exec (.read a) s = .next u → exec (.read b) t = .next v → u.ret = v.ret ∧ u.rsr = v.rsr

/-- R56, R194: two addresses of one cell of the current view are sent alike by `WRITE`, `ERASE` and, but for `X16` with `RD16_AW` = 8,
`READ`. -/
def Obligations.AddressesOfOneCellAreSentAlike : Prop :=
  ∀ (a b : Addr) (v : Word) (s : State), a.toNat % NCELL s.mode = b.toNat % NCELL s.mode →
    (∀ t u, exec (.write a v) s = .next t → exec (.write b v) s = .next u → t.trace = u.trace) ∧
    (∀ t u, exec (.erase a) s = .next t → exec (.erase b) s = .next u → t.trace = u.trace) ∧
    (s.mode = .X8 ∨ s.cfg.rd16aw = .six →
      ∀ t u, exec (.read a) s = .next t → exec (.read b) s = .next u → t.trace = u.trace ∧ t.ret = u.ret)

/-! ### The wire -/

/-- R73, R74, R75: the frames without operands, bit by bit, as the chip receives them. -/
def Obligations.FixedFramePatterns : Prop :=
  ∀ (s t : State) (es : List Event), s.cs = false → s.di = false → t.trace = s.trace ++ es →
    (exec .ewen s = .next t → framesOf s.lines es = [match s.mode with
      | .X16 => [true, false, false, true, true, false, false, false, false]
      | .X8 => [true, false, false, true, true, false, false, false, false, false]]) ∧
    (exec .ewds s = .next t → framesOf s.lines es = [match s.mode with
      | .X16 => [true, false, false, false, false, false, false, false, false]
      | .X8 => [true, false, false, false, false, false, false, false, false, false]]) ∧
    (exec .eral s = .next t → s.ew = true → framesOf s.lines es = [match s.mode with
      | .X16 => [true, false, false, true, false, false, false, false, false]
      | .X8 => [true, false, false, true, false, false, false, false, false, false], []])

/-- R76, R77, R78: the frames with operands, bit by bit, as the chip receives them; `wireBits x n` is the `n` bits of `trunc_n(x)`, most
significant first. The second, empty frame is the completion wait's. -/
def Obligations.OperandFramePatterns : Prop :=
  ∀ (a : Addr) (v : Word) (s t : State) (es : List Event), s.cs = false → s.di = false → t.trace = s.trace ++ es → s.ew = true →
    (exec (.wral v) s = .next t → framesOf s.lines es = [match s.mode with
      | .X16 => [true, false, false, false, true, false, false, false, false] ++ wireBits v.toNat 16
      | .X8 => [true, false, false, false, true, false, false, false, false, false] ++ wireBits v.toNat 8, []]) ∧
    (exec (.write a v) s = .next t → framesOf s.lines es = [match s.mode with
      | .X16 => [true, false, true] ++ wireBits (a.toNat % 64) 6 ++ wireBits v.toNat 16
      | .X8 => [true, false, true] ++ wireBits (a.toNat % 128) 7 ++ wireBits v.toNat 8, []]) ∧
    (exec (.erase a) s = .next t → framesOf s.lines es = [match s.mode with
      | .X16 => [true, true, true] ++ wireBits (a.toNat % 64) 6
      | .X8 => [true, true, true] ++ wireBits (a.toNat % 128) 7, []])

/-- R71 to R79 and R7: what the chip receives while an operation runs is the row of the frame table for that operation, mode and operands (for
`READ`, followed by a 0 per response pulse), then, for a mutating operation, the empty frame of its wait. -/
def Obligations.WireCarriesTheTableFrame : Prop :=
  ∀ (i r : Instr) (s t : State) (bits : List Level) (es : List Event), exec i s = .next t → t.trace = s.trace ++ es →
    s.cs = false → s.di = false → (i.op.mutating = true → s.ew = true) →
    frameRow i.op s.cfg.rd16aw s.mode (addrOf i) (valueOf i) = some r → encode r = .frame bits →
    framesOf s.lines es =
      (if i.op = .read then bits ++ List.replicate (DW s.mode) false else bits) :: (if i.op.mutating then [[]] else [])

/-- A wire-frame instruction puts exactly its own bits on the wire (R73 to R79). -/
def Obligations.FrameInstructionSendsItself : Prop :=
  ∀ (i : Instr) (s : State) (bits : List Level), encode i = .frame bits → Ready s → Presentable i s → s.cs = false → s.di = false →
    (i.op.mutating = true → s.ew = true) →
    ∃ t es, exec i s = .next t ∧ t.trace = s.trace ++ es ∧
      framesOf s.lines es =
        (if i.op = .read then bits ++ List.replicate (DW s.mode) false else bits) :: (if i.op.mutating then [[]] else [])

/-- R87: clock pulses per operation; the completion wait costs none. -/
def Obligations.ClockPulsesPerOperation : Prop :=
  (∀ (s t : State) (es : List Event), Waiting s → step s = .next t → t.trace = s.trace ++ es → pulses es = 0) ∧
  ∀ (i : Instr) (s t : State) (es : List Event), exec i s = .next t → t.trace = s.trace ++ es →
    pulses es =
      match i.op with
      | .construct => 0
      | .setmode => 0
      | .query => 0
      | .ewen => 1 + OW s.mode
      | .ewds => 1 + OW s.mode
      | .eral => if s.ew then 1 + OW s.mode else 0
      | .erase => if s.ew then 1 + OW s.mode else 0
      | .wral => if s.ew then 1 + OW s.mode + DW s.mode else 0
      | .write => if s.ew then 1 + OW s.mode + DW s.mode else 0
      | .read =>
        match s.mode with
        | .X16 => 1 + 2 + readAddrBits s.cfg.rd16aw + 16
        | .X8 => 1 + 9 + 8

/-- R101 (a) to (f): the properties of `TX(v, n)`. -/
def Obligations.TransmitterProperties : Prop :=
  ∀ (T : Nat) (v w : Word) (n k : Nat) (l : Lines),
    -- (a) `6n` events: `4n` writes, `2n` delays of the hold, no sample
    ((txEvents T v n).length = 6 * n ∧ (writes (txEvents T v n)).length = 4 * n ∧ samples (txEvents T v n) = [] ∧
      ((txEvents T v n).filter (fun e => e = .D T)).length = 2 * n) ∧
    -- (b) `SK` and `DI` end at 0, `CS` is not touched
    (1 ≤ n → linesAfter l (txEvents T v n) = { CS := l.CS, SK := false, DI := false }) ∧
    -- (c) `n` rising and `n` falling edges of `SK`
    (l.SK = false →
      ((transitions l (txEvents T v n)).filter (fun x => x = (.SK, true))).length = n ∧
      ((transitions l (txEvents T v n)).filter (fun x => x = (.SK, false))).length = n) ∧
    -- (d) `DI` changes twice for every 1 bit sent, never for a 0 bit
    (l.DI = false →
      transitionsOf .DI l (txEvents T v n) = 2 * ((List.range n).filter (fun j => v.getLsbD j)).length) ∧
    -- (e) the levels at the rising edges are the bits from `n - 1` down
    (clockedBits l.DI (txEvents T v n) = wireBits v.toNat n) ∧
    -- (f) fields concatenate
    (n + k ≤ 16 →
      txEvents T v n ++ txEvents T w k = txEvents T ((trunc n v <<< k) ||| trunc k w) (n + k))

/-- R103 (a) to (e): the properties of `RX(n)`. -/
def Obligations.ReceiverProperties : Prop :=
  ∀ (T : Nat) (bits : List Level) (l : Lines),
    -- (a) `5n` events: `2n` writes, `n` samples, `2n` delays of the hold
    ((rxEvents T bits).length = 5 * bits.length ∧ (writes (rxEvents T bits)).length = 2 * bits.length ∧
      samples (rxEvents T bits) = bits ∧ ((rxEvents T bits).filter (fun e => e = .D T)).length = 2 * bits.length) ∧
    -- (b) `SK` ends at 0; `DI` and `CS` are not touched
    (bits ≠ [] → linesAfter l (rxEvents T bits) = { CS := l.CS, SK := false, DI := l.DI }) ∧
    -- (c) each sample is taken while `SK = 1`
    (∀ pre post b, rxEvents T bits = pre ++ .S b :: post → (linesAfter l pre).SK = true) ∧
    -- (d) the result is the sum of `b_k * 2^(n-1-k)`, less than `2^n`
    (∀ (b : Level) (rest : List Level), bits = b :: rest →
      ofWireBits bits = b.toNat * 2 ^ rest.length + ofWireBits rest) ∧ ofWireBits bits < 2 ^ bits.length ∧
    -- (e) the chip sees `DI` as it was left, 0 after a `TX`
    (clockedBits l.DI (rxEvents T bits) = List.replicate bits.length l.DI)

/-! ### The sequencer -/

/-- R172: the lengths of the micro-programs, counting `uD`. -/
def Obligations.MicroprogramLengths : Prop :=
  ∀ s : State, (progOf s).length =
    match s.op, s.mode with
    | .construct, _ => 4
    | .setmode, _ => 0
    | .query, _ => 0
    | .ewen, .X16 => 56
    | .ewen, .X8 => 62
    | .ewds, .X16 => 56
    | .ewds, .X8 => 62
    | .eral, .X16 => if s.ew then 59 else 0
    | .eral, .X8 => if s.ew then 65 else 0
    | .erase, .X16 => if s.ew then 59 else 0
    | .erase, .X8 => if s.ew then 65 else 0
    | .wral, .X16 => if s.ew then 155 else 0
    | .wral, .X8 => if s.ew then 113 else 0
    | .write, .X16 => if s.ew then 155 else 0
    | .write, .X8 => if s.ew then 113 else 0
    | .read, .X16 => match s.cfg.rd16aw with
      | .six => 136
      | .eight => 148
    | .read, .X8 => 102

/-- R171, R174, R175, R178: with `BUSY = 1` and `UPC` inside the micro-program, a step performs the micro-operation at `UPC`: R171's row, event,
effect and next `UPC`, and nothing else (`takeLevel` is the environment's side of a sample, log 2; `TSR` and `TCNT`, which `drive` and
`hold` show, are R26's, their instants log 14). It commits nothing: no flag, no operand latch, not `BUSY`, not the micro-program. -/
def Obligations.MicroStepsCommitNothing : Prop :=
  ∀ (s : State) (u : MicroOp), s.busy = true → (progOf s)[s.upc]? = some u →
    ∃ t, seqStep s = .next t ∧ progOf t = progOf s ∧
      t.ew = s.ew ∧ t.mode = s.mode ∧ t.op = s.op ∧ t.aL = s.aL ∧ t.vL = s.vL ∧ t.mL = s.mL ∧ t.busy = s.busy ∧ t.ret = s.ret ∧
      t.constructed = s.constructed ∧
      match u with
      | .config p d => t = { s with
          dir := { CS := if p = .CS then d else s.dir.CS, SK := if p = .SK then d else s.dir.SK,
                   DI := if p = .DI then d else s.dir.DI, DO := if p = .DO then d else s.dir.DO },
          trace := s.trace ++ [.CFG p d], upc := s.upc + 1 }
      | .write p v => t = { s with
          cs := if p = .CS then v else s.cs, sk := if p = .SK then v else s.sk, di := if p = .DI then v else s.di,
          trace := s.trace ++ [.W p v], upc := s.upc + 1 }
      | .drive v i => t = { s with
          di := v.getLsbD i, tsr := v, tcnt := BitVec.ofNat 5 i, trace := s.trace ++ [.W .DI (v.getLsbD i)], upc := s.upc + 1 }
      | .delay n => t = { s with trace := s.trace ++ [.D n], upc := s.upc + 1 }
      | .hold i n => t = { s with tcnt := BitVec.ofNat 5 i, trace := s.trace ++ [.D n], upc := s.upc + 1 }
      | .sample i =>
        t = { s.takeLevel with rsr := t.rsr, trace := s.trace ++ [.S s.nextLevel], upc := s.upc + 1 } ∧
        ∀ j < 16, t.rsr.getLsbD j = if j = i then s.nextLevel else s.rsr.getLsbD j
      | .poll => t = { s.takeLevel with
          trace := s.trace ++ [.S s.nextLevel], upc := if s.nextLevel = s.cfg.readyLevel then s.upc + 1 else s.upc }

/-- R178: the complete step writes what its row names, then `BUSY <- 0`; no event, no pin but `CONSTRUCT`'s, no register. -/
def Obligations.CompleteStepCommits : Prop :=
  ∀ s : State, s.upc = (progOf s).length →
    seqStep s = .next (match s.op with
      | .construct => { s with
          ew := false, mode := .X16, cs := s.cfg.resetCS, sk := s.cfg.resetSK, di := s.cfg.resetDI, constructed := true,
          busy := false, ret := .nothing }
      | .setmode => { s with mode := s.mL, busy := false, ret := .nothing }
      | .ewen => { s with ew := true, busy := false, ret := .nothing }
      | .ewds => { s with ew := false, busy := false, ret := .nothing }
      | .query => { s with busy := false, ret := .bit s.ew }
      | .read => { s with busy := false, ret := .value s.rsr }
      | _ => { s with busy := false, ret := .nothing })

/-- R173, R179 (with the model's extent of a step, log 4): the accept step writes `OP`, the latches of the operands the instruction has,
`UPC = 0`, `BUSY = 1`, and `RSR = 0` for `READ` alone; no event, no pin, nothing else. What an operation's step answers is reached from
there by steps of the spec's own size, one micro-operation each. -/
def Obligations.SmallStepsReachTheOperation : Prop :=
  (∀ (i : Instr) (s : State), acceptStep i.op (latched i s) =
    { s with
      op := i.op
      aL := match i.op with
        | .write => addrOf i
        | .erase => addrOf i
        | .read => addrOf i
        | _ => s.aL
      vL := match i.op with
        | .wral => valueOf i
        | .write => valueOf i
        | _ => s.vL
      mL := modeOf i s.mL
      upc := 0
      busy := true
      rsr := match i.op with
        | .read => 0
        | _ => s.rsr }) ∧
  ∀ (i : Instr) (s t : State), exec i s = .next t →
    ∃ n, 0 < n ∧ seqRun n (acceptStep i.op (latched i s)) = .next t

/-- R179, for an operation already in progress: what a step of a busy engine answers is reached by steps of the spec's own size. -/
def Obligations.SmallStepsReachTheResumedStep : Prop :=
  ∀ s t : State, s.busy = true → step s = .next t → ∃ n, 0 < n ∧ seqRun n s = .next t

/-- R26, R172 (the instants are the model's, log 14): `RX(n)` starts with `TCNT` at `n - 1` and counts down to 0. Standing at bit `i` of it, after
the first and until the last of the bit's five micro-operations `TCNT` is `i`, whatever it was before; the fourth stores the level sampled
at the position `TCNT` shows, and no bit of `RSR` elsewhere. `TSR` is not touched. -/
def Obligations.ReceiverPosition : Prop :=
  ∀ (s : State) (T n i k : Nat) (pre post : List MicroOp), i < n → n ≤ 16 → s.busy = true → 1 ≤ k → k ≤ 5 →
    progOf s = pre ++ rx T n ++ post → s.upc = pre.length + 5 * (n - 1 - i) →
    ∃ t, seqRun k s = .next t ∧ t.tcnt.toNat = i ∧ t.upc = s.upc + k ∧ t.tsr = s.tsr ∧
      ∀ j < 16, t.rsr.getLsbD j = if 4 ≤ k ∧ j = t.tcnt.toNat then s.nextLevel else s.rsr.getLsbD j
end

