-- ==== Sys2Proof/Laws/State.lean ====
section
/-! SUPPORT. What each named update of the state does to each field, so that no proof unfolds a record update. -/

namespace Sys2Proof.Machine

/-! ### `emit` -/

@[simp] theorem emit_ew (s : State) (e : Event) : (s.emit e).ew = s.ew := rfl
@[simp] theorem emit_mode (s : State) (e : Event) : (s.emit e).mode = s.mode := rfl
@[simp] theorem emit_cs (s : State) (e : Event) : (s.emit e).cs = s.cs := rfl
@[simp] theorem emit_sk (s : State) (e : Event) : (s.emit e).sk = s.sk := rfl
@[simp] theorem emit_di (s : State) (e : Event) : (s.emit e).di = s.di := rfl
@[simp] theorem emit_dir (s : State) (e : Event) : (s.emit e).dir = s.dir := rfl
@[simp] theorem emit_tsr (s : State) (e : Event) : (s.emit e).tsr = s.tsr := rfl
@[simp] theorem emit_tcnt (s : State) (e : Event) : (s.emit e).tcnt = s.tcnt := rfl
@[simp] theorem emit_rsr (s : State) (e : Event) : (s.emit e).rsr = s.rsr := rfl
@[simp] theorem emit_op (s : State) (e : Event) : (s.emit e).op = s.op := rfl
@[simp] theorem emit_aL (s : State) (e : Event) : (s.emit e).aL = s.aL := rfl
@[simp] theorem emit_vL (s : State) (e : Event) : (s.emit e).vL = s.vL := rfl
@[simp] theorem emit_mL (s : State) (e : Event) : (s.emit e).mL = s.mL := rfl
@[simp] theorem emit_upc (s : State) (e : Event) : (s.emit e).upc = s.upc := rfl
@[simp] theorem emit_busy (s : State) (e : Event) : (s.emit e).busy = s.busy := rfl
@[simp] theorem emit_cfg (s : State) (e : Event) : (s.emit e).cfg = s.cfg := rfl
@[simp] theorem emit_constructed (s : State) (e : Event) : (s.emit e).constructed = s.constructed := rfl
@[simp] theorem emit_trace (s : State) (e : Event) : (s.emit e).trace = s.trace ++ [e] := rfl
@[simp] theorem emit_ret (s : State) (e : Event) : (s.emit e).ret = s.ret := rfl
@[simp] theorem emit_doScript (s : State) (e : Event) : (s.emit e).doScript = s.doScript := rfl
@[simp] theorem emit_drawn (s : State) (e : Event) : (s.emit e).drawn = s.drawn := rfl
@[simp] theorem emit_host (s : State) (e : Event) : (s.emit e).host = s.host := rfl

/-! ### `advance` -/

@[simp] theorem advance_ew (s : State) : (s.advance).ew = s.ew := rfl
@[simp] theorem advance_mode (s : State) : (s.advance).mode = s.mode := rfl
@[simp] theorem advance_cs (s : State) : (s.advance).cs = s.cs := rfl
@[simp] theorem advance_sk (s : State) : (s.advance).sk = s.sk := rfl
@[simp] theorem advance_di (s : State) : (s.advance).di = s.di := rfl
@[simp] theorem advance_dir (s : State) : (s.advance).dir = s.dir := rfl
@[simp] theorem advance_tsr (s : State) : (s.advance).tsr = s.tsr := rfl
@[simp] theorem advance_tcnt (s : State) : (s.advance).tcnt = s.tcnt := rfl
@[simp] theorem advance_rsr (s : State) : (s.advance).rsr = s.rsr := rfl
@[simp] theorem advance_op (s : State) : (s.advance).op = s.op := rfl
@[simp] theorem advance_aL (s : State) : (s.advance).aL = s.aL := rfl
@[simp] theorem advance_vL (s : State) : (s.advance).vL = s.vL := rfl
@[simp] theorem advance_mL (s : State) : (s.advance).mL = s.mL := rfl
@[simp] theorem advance_upc (s : State) : (s.advance).upc = s.upc + 1 := rfl
@[simp] theorem advance_busy (s : State) : (s.advance).busy = s.busy := rfl
@[simp] theorem advance_cfg (s : State) : (s.advance).cfg = s.cfg := rfl
@[simp] theorem advance_constructed (s : State) : (s.advance).constructed = s.constructed := rfl
@[simp] theorem advance_trace (s : State) : (s.advance).trace = s.trace := rfl
@[simp] theorem advance_ret (s : State) : (s.advance).ret = s.ret := rfl
@[simp] theorem advance_doScript (s : State) : (s.advance).doScript = s.doScript := rfl
@[simp] theorem advance_drawn (s : State) : (s.advance).drawn = s.drawn := rfl
@[simp] theorem advance_host (s : State) : (s.advance).host = s.host := rfl

/-! ### `loadTx` -/

@[simp] theorem loadTx_ew (s : State) (v : Word) (i : Nat) : (s.loadTx v i).ew = s.ew := rfl
@[simp] theorem loadTx_mode (s : State) (v : Word) (i : Nat) : (s.loadTx v i).mode = s.mode := rfl
@[simp] theorem loadTx_cs (s : State) (v : Word) (i : Nat) : (s.loadTx v i).cs = s.cs := rfl
@[simp] theorem loadTx_sk (s : State) (v : Word) (i : Nat) : (s.loadTx v i).sk = s.sk := rfl
@[simp] theorem loadTx_di (s : State) (v : Word) (i : Nat) : (s.loadTx v i).di = s.di := rfl
@[simp] theorem loadTx_dir (s : State) (v : Word) (i : Nat) : (s.loadTx v i).dir = s.dir := rfl
@[simp] theorem loadTx_tsr (s : State) (v : Word) (i : Nat) : (s.loadTx v i).tsr = v := rfl
@[simp] theorem loadTx_tcnt (s : State) (v : Word) (i : Nat) : (s.loadTx v i).tcnt = BitVec.ofNat 5 i := rfl
@[simp] theorem loadTx_rsr (s : State) (v : Word) (i : Nat) : (s.loadTx v i).rsr = s.rsr := rfl
@[simp] theorem loadTx_op (s : State) (v : Word) (i : Nat) : (s.loadTx v i).op = s.op := rfl
@[simp] theorem loadTx_aL (s : State) (v : Word) (i : Nat) : (s.loadTx v i).aL = s.aL := rfl
@[simp] theorem loadTx_vL (s : State) (v : Word) (i : Nat) : (s.loadTx v i).vL = s.vL := rfl
@[simp] theorem loadTx_mL (s : State) (v : Word) (i : Nat) : (s.loadTx v i).mL = s.mL := rfl
@[simp] theorem loadTx_upc (s : State) (v : Word) (i : Nat) : (s.loadTx v i).upc = s.upc := rfl
@[simp] theorem loadTx_busy (s : State) (v : Word) (i : Nat) : (s.loadTx v i).busy = s.busy := rfl
@[simp] theorem loadTx_cfg (s : State) (v : Word) (i : Nat) : (s.loadTx v i).cfg = s.cfg := rfl
@[simp] theorem loadTx_constructed (s : State) (v : Word) (i : Nat) : (s.loadTx v i).constructed = s.constructed := rfl
@[simp] theorem loadTx_trace (s : State) (v : Word) (i : Nat) : (s.loadTx v i).trace = s.trace := rfl
@[simp] theorem loadTx_ret (s : State) (v : Word) (i : Nat) : (s.loadTx v i).ret = s.ret := rfl
@[simp] theorem loadTx_doScript (s : State) (v : Word) (i : Nat) : (s.loadTx v i).doScript = s.doScript := rfl
@[simp] theorem loadTx_drawn (s : State) (v : Word) (i : Nat) : (s.loadTx v i).drawn = s.drawn := rfl
@[simp] theorem loadTx_host (s : State) (v : Word) (i : Nat) : (s.loadTx v i).host = s.host := rfl

/-! ### `loadRx` -/

@[simp] theorem loadRx_ew (s : State) (i : Nat) : (s.loadRx i).ew = s.ew := rfl
@[simp] theorem loadRx_mode (s : State) (i : Nat) : (s.loadRx i).mode = s.mode := rfl
@[simp] theorem loadRx_cs (s : State) (i : Nat) : (s.loadRx i).cs = s.cs := rfl
@[simp] theorem loadRx_sk (s : State) (i : Nat) : (s.loadRx i).sk = s.sk := rfl
@[simp] theorem loadRx_di (s : State) (i : Nat) : (s.loadRx i).di = s.di := rfl
@[simp] theorem loadRx_dir (s : State) (i : Nat) : (s.loadRx i).dir = s.dir := rfl
@[simp] theorem loadRx_tsr (s : State) (i : Nat) : (s.loadRx i).tsr = s.tsr := rfl
@[simp] theorem loadRx_tcnt (s : State) (i : Nat) : (s.loadRx i).tcnt = BitVec.ofNat 5 i := rfl
@[simp] theorem loadRx_rsr (s : State) (i : Nat) : (s.loadRx i).rsr = s.rsr := rfl
@[simp] theorem loadRx_op (s : State) (i : Nat) : (s.loadRx i).op = s.op := rfl
@[simp] theorem loadRx_aL (s : State) (i : Nat) : (s.loadRx i).aL = s.aL := rfl
@[simp] theorem loadRx_vL (s : State) (i : Nat) : (s.loadRx i).vL = s.vL := rfl
@[simp] theorem loadRx_mL (s : State) (i : Nat) : (s.loadRx i).mL = s.mL := rfl
@[simp] theorem loadRx_upc (s : State) (i : Nat) : (s.loadRx i).upc = s.upc := rfl
@[simp] theorem loadRx_busy (s : State) (i : Nat) : (s.loadRx i).busy = s.busy := rfl
@[simp] theorem loadRx_cfg (s : State) (i : Nat) : (s.loadRx i).cfg = s.cfg := rfl
@[simp] theorem loadRx_constructed (s : State) (i : Nat) : (s.loadRx i).constructed = s.constructed := rfl
@[simp] theorem loadRx_trace (s : State) (i : Nat) : (s.loadRx i).trace = s.trace := rfl
@[simp] theorem loadRx_ret (s : State) (i : Nat) : (s.loadRx i).ret = s.ret := rfl
@[simp] theorem loadRx_doScript (s : State) (i : Nat) : (s.loadRx i).doScript = s.doScript := rfl
@[simp] theorem loadRx_drawn (s : State) (i : Nat) : (s.loadRx i).drawn = s.drawn := rfl
@[simp] theorem loadRx_host (s : State) (i : Nat) : (s.loadRx i).host = s.host := rfl

/-! ### `storeRx` -/

@[simp] theorem storeRx_ew (s : State) (i : Nat) (b : Level) : (s.storeRx i b).ew = s.ew := rfl
@[simp] theorem storeRx_mode (s : State) (i : Nat) (b : Level) : (s.storeRx i b).mode = s.mode := rfl
@[simp] theorem storeRx_cs (s : State) (i : Nat) (b : Level) : (s.storeRx i b).cs = s.cs := rfl
@[simp] theorem storeRx_sk (s : State) (i : Nat) (b : Level) : (s.storeRx i b).sk = s.sk := rfl
@[simp] theorem storeRx_di (s : State) (i : Nat) (b : Level) : (s.storeRx i b).di = s.di := rfl
@[simp] theorem storeRx_dir (s : State) (i : Nat) (b : Level) : (s.storeRx i b).dir = s.dir := rfl
@[simp] theorem storeRx_tsr (s : State) (i : Nat) (b : Level) : (s.storeRx i b).tsr = s.tsr := rfl
@[simp] theorem storeRx_tcnt (s : State) (i : Nat) (b : Level) : (s.storeRx i b).tcnt = s.tcnt := rfl
@[simp] theorem storeRx_rsr (s : State) (i : Nat) (b : Level) : (s.storeRx i b).rsr = setBit s.rsr i b := rfl
@[simp] theorem storeRx_op (s : State) (i : Nat) (b : Level) : (s.storeRx i b).op = s.op := rfl
@[simp] theorem storeRx_aL (s : State) (i : Nat) (b : Level) : (s.storeRx i b).aL = s.aL := rfl
@[simp] theorem storeRx_vL (s : State) (i : Nat) (b : Level) : (s.storeRx i b).vL = s.vL := rfl
@[simp] theorem storeRx_mL (s : State) (i : Nat) (b : Level) : (s.storeRx i b).mL = s.mL := rfl
@[simp] theorem storeRx_upc (s : State) (i : Nat) (b : Level) : (s.storeRx i b).upc = s.upc := rfl
@[simp] theorem storeRx_busy (s : State) (i : Nat) (b : Level) : (s.storeRx i b).busy = s.busy := rfl
@[simp] theorem storeRx_cfg (s : State) (i : Nat) (b : Level) : (s.storeRx i b).cfg = s.cfg := rfl
@[simp] theorem storeRx_constructed (s : State) (i : Nat) (b : Level) : (s.storeRx i b).constructed = s.constructed := rfl
@[simp] theorem storeRx_trace (s : State) (i : Nat) (b : Level) : (s.storeRx i b).trace = s.trace := rfl
@[simp] theorem storeRx_ret (s : State) (i : Nat) (b : Level) : (s.storeRx i b).ret = s.ret := rfl
@[simp] theorem storeRx_doScript (s : State) (i : Nat) (b : Level) : (s.storeRx i b).doScript = s.doScript := rfl
@[simp] theorem storeRx_drawn (s : State) (i : Nat) (b : Level) : (s.storeRx i b).drawn = s.drawn := rfl
@[simp] theorem storeRx_host (s : State) (i : Nat) (b : Level) : (s.storeRx i b).host = s.host := rfl

/-! ### `setEw` -/

@[simp] theorem setEw_ew (s : State) : (s.setEw).ew = true := rfl
@[simp] theorem setEw_mode (s : State) : (s.setEw).mode = s.mode := rfl
@[simp] theorem setEw_cs (s : State) : (s.setEw).cs = s.cs := rfl
@[simp] theorem setEw_sk (s : State) : (s.setEw).sk = s.sk := rfl
@[simp] theorem setEw_di (s : State) : (s.setEw).di = s.di := rfl
@[simp] theorem setEw_dir (s : State) : (s.setEw).dir = s.dir := rfl
@[simp] theorem setEw_tsr (s : State) : (s.setEw).tsr = s.tsr := rfl
@[simp] theorem setEw_tcnt (s : State) : (s.setEw).tcnt = s.tcnt := rfl
@[simp] theorem setEw_rsr (s : State) : (s.setEw).rsr = s.rsr := rfl
@[simp] theorem setEw_op (s : State) : (s.setEw).op = s.op := rfl
@[simp] theorem setEw_aL (s : State) : (s.setEw).aL = s.aL := rfl
@[simp] theorem setEw_vL (s : State) : (s.setEw).vL = s.vL := rfl
@[simp] theorem setEw_mL (s : State) : (s.setEw).mL = s.mL := rfl
@[simp] theorem setEw_upc (s : State) : (s.setEw).upc = s.upc := rfl
@[simp] theorem setEw_busy (s : State) : (s.setEw).busy = s.busy := rfl
@[simp] theorem setEw_cfg (s : State) : (s.setEw).cfg = s.cfg := rfl
@[simp] theorem setEw_constructed (s : State) : (s.setEw).constructed = s.constructed := rfl
@[simp] theorem setEw_trace (s : State) : (s.setEw).trace = s.trace := rfl
@[simp] theorem setEw_ret (s : State) : (s.setEw).ret = s.ret := rfl
@[simp] theorem setEw_doScript (s : State) : (s.setEw).doScript = s.doScript := rfl
@[simp] theorem setEw_drawn (s : State) : (s.setEw).drawn = s.drawn := rfl
@[simp] theorem setEw_host (s : State) : (s.setEw).host = s.host := rfl

/-! ### `clearEw` -/

@[simp] theorem clearEw_ew (s : State) : (s.clearEw).ew = false := rfl
@[simp] theorem clearEw_mode (s : State) : (s.clearEw).mode = s.mode := rfl
@[simp] theorem clearEw_cs (s : State) : (s.clearEw).cs = s.cs := rfl
@[simp] theorem clearEw_sk (s : State) : (s.clearEw).sk = s.sk := rfl
@[simp] theorem clearEw_di (s : State) : (s.clearEw).di = s.di := rfl
@[simp] theorem clearEw_dir (s : State) : (s.clearEw).dir = s.dir := rfl
@[simp] theorem clearEw_tsr (s : State) : (s.clearEw).tsr = s.tsr := rfl
@[simp] theorem clearEw_tcnt (s : State) : (s.clearEw).tcnt = s.tcnt := rfl
@[simp] theorem clearEw_rsr (s : State) : (s.clearEw).rsr = s.rsr := rfl
@[simp] theorem clearEw_op (s : State) : (s.clearEw).op = s.op := rfl
@[simp] theorem clearEw_aL (s : State) : (s.clearEw).aL = s.aL := rfl
@[simp] theorem clearEw_vL (s : State) : (s.clearEw).vL = s.vL := rfl
@[simp] theorem clearEw_mL (s : State) : (s.clearEw).mL = s.mL := rfl
@[simp] theorem clearEw_upc (s : State) : (s.clearEw).upc = s.upc := rfl
@[simp] theorem clearEw_busy (s : State) : (s.clearEw).busy = s.busy := rfl
@[simp] theorem clearEw_cfg (s : State) : (s.clearEw).cfg = s.cfg := rfl
@[simp] theorem clearEw_constructed (s : State) : (s.clearEw).constructed = s.constructed := rfl
@[simp] theorem clearEw_trace (s : State) : (s.clearEw).trace = s.trace := rfl
@[simp] theorem clearEw_ret (s : State) : (s.clearEw).ret = s.ret := rfl
@[simp] theorem clearEw_doScript (s : State) : (s.clearEw).doScript = s.doScript := rfl
@[simp] theorem clearEw_drawn (s : State) : (s.clearEw).drawn = s.drawn := rfl
@[simp] theorem clearEw_host (s : State) : (s.clearEw).host = s.host := rfl

/-! ### `acceptStep` -/

@[simp] theorem acceptStep_ew (s : State) (o : Op) : (acceptStep o s).ew = s.ew := rfl
@[simp] theorem acceptStep_mode (s : State) (o : Op) : (acceptStep o s).mode = s.mode := rfl
@[simp] theorem acceptStep_cs (s : State) (o : Op) : (acceptStep o s).cs = s.cs := rfl
@[simp] theorem acceptStep_sk (s : State) (o : Op) : (acceptStep o s).sk = s.sk := rfl
@[simp] theorem acceptStep_di (s : State) (o : Op) : (acceptStep o s).di = s.di := rfl
@[simp] theorem acceptStep_dir (s : State) (o : Op) : (acceptStep o s).dir = s.dir := rfl
@[simp] theorem acceptStep_tsr (s : State) (o : Op) : (acceptStep o s).tsr = s.tsr := rfl
@[simp] theorem acceptStep_tcnt (s : State) (o : Op) : (acceptStep o s).tcnt = s.tcnt := rfl
@[simp] theorem acceptStep_rsr (s : State) (o : Op) : (acceptStep o s).rsr = clearForRead o s.rsr := rfl
@[simp] theorem acceptStep_op (s : State) (o : Op) : (acceptStep o s).op = o := rfl
@[simp] theorem acceptStep_aL (s : State) (o : Op) : (acceptStep o s).aL = s.aL := rfl
@[simp] theorem acceptStep_vL (s : State) (o : Op) : (acceptStep o s).vL = s.vL := rfl
@[simp] theorem acceptStep_mL (s : State) (o : Op) : (acceptStep o s).mL = s.mL := rfl
@[simp] theorem acceptStep_upc (s : State) (o : Op) : (acceptStep o s).upc = 0 := rfl
@[simp] theorem acceptStep_busy (s : State) (o : Op) : (acceptStep o s).busy = true := rfl
@[simp] theorem acceptStep_cfg (s : State) (o : Op) : (acceptStep o s).cfg = s.cfg := rfl
@[simp] theorem acceptStep_constructed (s : State) (o : Op) : (acceptStep o s).constructed = s.constructed := rfl
@[simp] theorem acceptStep_trace (s : State) (o : Op) : (acceptStep o s).trace = s.trace := rfl
@[simp] theorem acceptStep_ret (s : State) (o : Op) : (acceptStep o s).ret = s.ret := rfl
@[simp] theorem acceptStep_doScript (s : State) (o : Op) : (acceptStep o s).doScript = s.doScript := rfl
@[simp] theorem acceptStep_drawn (s : State) (o : Op) : (acceptStep o s).drawn = s.drawn := rfl
@[simp] theorem acceptStep_host (s : State) (o : Op) : (acceptStep o s).host = s.host := rfl

/-! ### `setPin` -/

@[simp] theorem setPin_ew (s : State) (p : OutPin) (v : Level) : (s.setPin p v).ew = s.ew := by cases p <;> rfl
@[simp] theorem setPin_mode (s : State) (p : OutPin) (v : Level) : (s.setPin p v).mode = s.mode := by cases p <;> rfl
@[simp] theorem setPin_cs (s : State) (p : OutPin) (v : Level) : (s.setPin p v).cs = if p = .CS then v else s.cs := by cases p <;> rfl
@[simp] theorem setPin_sk (s : State) (p : OutPin) (v : Level) : (s.setPin p v).sk = if p = .SK then v else s.sk := by cases p <;> rfl
@[simp] theorem setPin_di (s : State) (p : OutPin) (v : Level) : (s.setPin p v).di = if p = .DI then v else s.di := by cases p <;> rfl
@[simp] theorem setPin_dir (s : State) (p : OutPin) (v : Level) : (s.setPin p v).dir = s.dir := by cases p <;> rfl
@[simp] theorem setPin_tsr (s : State) (p : OutPin) (v : Level) : (s.setPin p v).tsr = s.tsr := by cases p <;> rfl
@[simp] theorem setPin_tcnt (s : State) (p : OutPin) (v : Level) : (s.setPin p v).tcnt = s.tcnt := by cases p <;> rfl
@[simp] theorem setPin_rsr (s : State) (p : OutPin) (v : Level) : (s.setPin p v).rsr = s.rsr := by cases p <;> rfl
@[simp] theorem setPin_op (s : State) (p : OutPin) (v : Level) : (s.setPin p v).op = s.op := by cases p <;> rfl
@[simp] theorem setPin_aL (s : State) (p : OutPin) (v : Level) : (s.setPin p v).aL = s.aL := by cases p <;> rfl
@[simp] theorem setPin_vL (s : State) (p : OutPin) (v : Level) : (s.setPin p v).vL = s.vL := by cases p <;> rfl
@[simp] theorem setPin_mL (s : State) (p : OutPin) (v : Level) : (s.setPin p v).mL = s.mL := by cases p <;> rfl
@[simp] theorem setPin_upc (s : State) (p : OutPin) (v : Level) : (s.setPin p v).upc = s.upc := by cases p <;> rfl
@[simp] theorem setPin_busy (s : State) (p : OutPin) (v : Level) : (s.setPin p v).busy = s.busy := by cases p <;> rfl
@[simp] theorem setPin_cfg (s : State) (p : OutPin) (v : Level) : (s.setPin p v).cfg = s.cfg := by cases p <;> rfl
@[simp] theorem setPin_constructed (s : State) (p : OutPin) (v : Level) : (s.setPin p v).constructed = s.constructed := by cases p <;> rfl
@[simp] theorem setPin_trace (s : State) (p : OutPin) (v : Level) : (s.setPin p v).trace = s.trace := by cases p <;> rfl
@[simp] theorem setPin_ret (s : State) (p : OutPin) (v : Level) : (s.setPin p v).ret = s.ret := by cases p <;> rfl
@[simp] theorem setPin_doScript (s : State) (p : OutPin) (v : Level) : (s.setPin p v).doScript = s.doScript := by cases p <;> rfl
@[simp] theorem setPin_drawn (s : State) (p : OutPin) (v : Level) : (s.setPin p v).drawn = s.drawn := by cases p <;> rfl
@[simp] theorem setPin_host (s : State) (p : OutPin) (v : Level) : (s.setPin p v).host = s.host := by cases p <;> rfl

/-! ### `setDir` -/

@[simp] theorem setDir_ew (s : State) (p : Pin) (d : Dir) : (s.setDir p d).ew = s.ew := by cases p <;> rfl
@[simp] theorem setDir_mode (s : State) (p : Pin) (d : Dir) : (s.setDir p d).mode = s.mode := by cases p <;> rfl
@[simp] theorem setDir_cs (s : State) (p : Pin) (d : Dir) : (s.setDir p d).cs = s.cs := by cases p <;> rfl
@[simp] theorem setDir_sk (s : State) (p : Pin) (d : Dir) : (s.setDir p d).sk = s.sk := by cases p <;> rfl
@[simp] theorem setDir_di (s : State) (p : Pin) (d : Dir) : (s.setDir p d).di = s.di := by cases p <;> rfl
@[simp] theorem setDir_tsr (s : State) (p : Pin) (d : Dir) : (s.setDir p d).tsr = s.tsr := by cases p <;> rfl
@[simp] theorem setDir_tcnt (s : State) (p : Pin) (d : Dir) : (s.setDir p d).tcnt = s.tcnt := by cases p <;> rfl
@[simp] theorem setDir_rsr (s : State) (p : Pin) (d : Dir) : (s.setDir p d).rsr = s.rsr := by cases p <;> rfl
@[simp] theorem setDir_op (s : State) (p : Pin) (d : Dir) : (s.setDir p d).op = s.op := by cases p <;> rfl
@[simp] theorem setDir_aL (s : State) (p : Pin) (d : Dir) : (s.setDir p d).aL = s.aL := by cases p <;> rfl
@[simp] theorem setDir_vL (s : State) (p : Pin) (d : Dir) : (s.setDir p d).vL = s.vL := by cases p <;> rfl
@[simp] theorem setDir_mL (s : State) (p : Pin) (d : Dir) : (s.setDir p d).mL = s.mL := by cases p <;> rfl
@[simp] theorem setDir_upc (s : State) (p : Pin) (d : Dir) : (s.setDir p d).upc = s.upc := by cases p <;> rfl
@[simp] theorem setDir_busy (s : State) (p : Pin) (d : Dir) : (s.setDir p d).busy = s.busy := by cases p <;> rfl
@[simp] theorem setDir_cfg (s : State) (p : Pin) (d : Dir) : (s.setDir p d).cfg = s.cfg := by cases p <;> rfl
@[simp] theorem setDir_constructed (s : State) (p : Pin) (d : Dir) : (s.setDir p d).constructed = s.constructed := by cases p <;> rfl
@[simp] theorem setDir_trace (s : State) (p : Pin) (d : Dir) : (s.setDir p d).trace = s.trace := by cases p <;> rfl
@[simp] theorem setDir_ret (s : State) (p : Pin) (d : Dir) : (s.setDir p d).ret = s.ret := by cases p <;> rfl
@[simp] theorem setDir_doScript (s : State) (p : Pin) (d : Dir) : (s.setDir p d).doScript = s.doScript := by cases p <;> rfl
@[simp] theorem setDir_drawn (s : State) (p : Pin) (d : Dir) : (s.setDir p d).drawn = s.drawn := by cases p <;> rfl
@[simp] theorem setDir_host (s : State) (p : Pin) (d : Dir) : (s.setDir p d).host = s.host := by cases p <;> rfl

/-! ### `takeLevel` -/

@[simp] theorem takeLevel_ew (s : State) : (s.takeLevel).ew = s.ew := by unfold State.takeLevel; split <;> simp_all
@[simp] theorem takeLevel_mode (s : State) : (s.takeLevel).mode = s.mode := by unfold State.takeLevel; split <;> simp_all
@[simp] theorem takeLevel_cs (s : State) : (s.takeLevel).cs = s.cs := by unfold State.takeLevel; split <;> simp_all
@[simp] theorem takeLevel_sk (s : State) : (s.takeLevel).sk = s.sk := by unfold State.takeLevel; split <;> simp_all
@[simp] theorem takeLevel_di (s : State) : (s.takeLevel).di = s.di := by unfold State.takeLevel; split <;> simp_all
@[simp] theorem takeLevel_dir (s : State) : (s.takeLevel).dir = s.dir := by unfold State.takeLevel; split <;> simp_all
@[simp] theorem takeLevel_tsr (s : State) : (s.takeLevel).tsr = s.tsr := by unfold State.takeLevel; split <;> simp_all
@[simp] theorem takeLevel_tcnt (s : State) : (s.takeLevel).tcnt = s.tcnt := by unfold State.takeLevel; split <;> simp_all
@[simp] theorem takeLevel_rsr (s : State) : (s.takeLevel).rsr = s.rsr := by unfold State.takeLevel; split <;> simp_all
@[simp] theorem takeLevel_op (s : State) : (s.takeLevel).op = s.op := by unfold State.takeLevel; split <;> simp_all
@[simp] theorem takeLevel_aL (s : State) : (s.takeLevel).aL = s.aL := by unfold State.takeLevel; split <;> simp_all
@[simp] theorem takeLevel_vL (s : State) : (s.takeLevel).vL = s.vL := by unfold State.takeLevel; split <;> simp_all
@[simp] theorem takeLevel_mL (s : State) : (s.takeLevel).mL = s.mL := by unfold State.takeLevel; split <;> simp_all
@[simp] theorem takeLevel_upc (s : State) : (s.takeLevel).upc = s.upc := by unfold State.takeLevel; split <;> simp_all
@[simp] theorem takeLevel_busy (s : State) : (s.takeLevel).busy = s.busy := by unfold State.takeLevel; split <;> simp_all
@[simp] theorem takeLevel_cfg (s : State) : (s.takeLevel).cfg = s.cfg := by unfold State.takeLevel; split <;> simp_all
@[simp] theorem takeLevel_constructed (s : State) : (s.takeLevel).constructed = s.constructed := by unfold State.takeLevel; split <;> simp_all
@[simp] theorem takeLevel_trace (s : State) : (s.takeLevel).trace = s.trace := by unfold State.takeLevel; split <;> simp_all
@[simp] theorem takeLevel_ret (s : State) : (s.takeLevel).ret = s.ret := by unfold State.takeLevel; split <;> simp_all
@[simp] theorem takeLevel_doScript (s : State) : (s.takeLevel).doScript = s.doScript.tail := by unfold State.takeLevel; split <;> simp_all
@[simp] theorem takeLevel_drawn (s : State) : (s.takeLevel).drawn = if s.doScript = [] then s.drawn + 1 else s.drawn := by unfold State.takeLevel; split <;> simp_all
@[simp] theorem takeLevel_host (s : State) : (s.takeLevel).host = s.host := by unfold State.takeLevel; split <;> simp_all

end Sys2Proof.Machine
end

