-- ==== Sys2Proof/Laws/Ops.lean ====
section
/-! SUPPORT. What the shared operations do: one law for the micro step, for each building block of a micro-program (`TX`, `RX`, the two
outcomes of a poll), for running a micro-program, and for the checks before an operation. -/

namespace Sys2Proof.Machine

/-! ### Micro steps -/

@[simp] theorem microStep_config (p : Pin) (d : Dir) (s : State) :
    microStep (.config p d) s = ((s.setDir p d).emit (.CFG p d)).advance := rfl

@[simp] theorem microStep_write (p : OutPin) (v : Level) (s : State) :
    microStep (.write p v) s = ((s.setPin p v).emit (.W p v)).advance := rfl

@[simp] theorem microStep_drive (v : Word) (i : Nat) (s : State) :
    microStep (.drive v i) s =
      (((s.loadTx v i).setPin .DI (v.getLsbD i)).emit (.W .DI (v.getLsbD i))).advance := rfl

@[simp] theorem microStep_delay (n : Nat) (s : State) : microStep (.delay n) s = (s.emit (.D n)).advance := rfl

@[simp] theorem microStep_hold (i n : Nat) (s : State) :
    microStep (.hold i n) s = ((s.loadRx i).emit (.D n)).advance := rfl

@[simp] theorem microStep_sample (i : Nat) (s : State) :
    microStep (.sample i) s = ((s.takeLevel.storeRx i s.nextLevel).emit (.S s.nextLevel)).advance := rfl

theorem microStep_poll_ready {s : State} (h : s.nextLevel = s.cfg.readyLevel) :
    microStep .poll s = (s.takeLevel.emit (.S s.nextLevel)).advance := by simp [microStep, h]

theorem microStep_poll_notReady {s : State} (h : s.nextLevel ≠ s.cfg.readyLevel) :
    microStep .poll s = s.takeLevel.emit (.S s.nextLevel) := by simp [microStep, h]

/-- The fields no micro step writes (R171, R178: the commit is the complete step's). -/
structure MicroKeeps (s t : State) : Prop where
  ew : t.ew = s.ew
  mode : t.mode = s.mode
  op : t.op = s.op
  aL : t.aL = s.aL
  vL : t.vL = s.vL
  mL : t.mL = s.mL
  busy : t.busy = s.busy
  cfg : t.cfg = s.cfg
  constructed : t.constructed = s.constructed
  ret : t.ret = s.ret
  host : t.host = s.host

theorem MicroKeeps.rfl' (s : State) : MicroKeeps s s := ⟨rfl, rfl, rfl, rfl, rfl, rfl, rfl, rfl, rfl, rfl, rfl⟩

theorem MicroKeeps.trans {s t u : State} (h : MicroKeeps s t) (k : MicroKeeps t u) : MicroKeeps s u :=
  ⟨k.ew.trans h.ew, k.mode.trans h.mode, k.op.trans h.op, k.aL.trans h.aL, k.vL.trans h.vL, k.mL.trans h.mL, k.busy.trans h.busy,
    k.cfg.trans h.cfg, k.constructed.trans h.constructed, k.ret.trans h.ret, k.host.trans h.host⟩

theorem microStep_keeps (u : MicroOp) (s : State) : MicroKeeps s (microStep u s) := by
  cases u <;> first
    | (simp only [microStep]; split <;> constructor <;> simp)
    | (constructor <;> simp)

/-- Every micro step performs exactly one event (R171). -/
theorem microStep_trace (u : MicroOp) (s : State) : ∃ e, (microStep u s).trace = s.trace ++ [e] := by
  cases u <;> first
    | (simp only [microStep]; split <;> exact ⟨_, by simp; rfl⟩)
    | exact ⟨_, by simp; rfl⟩

/-- `UPC` goes up by one, but for a poll that does not see `READY_LEVEL` (R27). -/
theorem microStep_upc (u : MicroOp) (s : State) :
    (microStep u s).upc = s.upc + 1 ∨
      u = .poll ∧ s.nextLevel ≠ s.cfg.readyLevel ∧ (microStep u s).upc = s.upc := by
  cases u <;> simp [microStep]
  by_cases h : s.nextLevel = s.cfg.readyLevel <;> simp [h]

/-- The micro-program does not change while it runs (R172). -/
theorem MicroKeeps.progOf {s t : State} (h : MicroKeeps s t) : progOf t = progOf s := by
  simp only [Machine.progOf, h.op, h.cfg, h.mode, h.ew, h.aL, h.vL]

/-! ### Running a micro-program -/

@[simp] theorem runMicro_nil (s : State) : runMicro [] s = completeStep s := rfl

theorem runMicro_cons_of_advance {u : MicroOp} {rest : List MicroOp} {s : State}
    (h : (microStep u s).upc = s.upc + 1) : runMicro (u :: rest) s = runMicro rest (microStep u s) := by
  simp [runMicro, h]

@[simp] theorem runMicro_config (p : Pin) (d : Dir) (rest : List MicroOp) (s : State) :
    runMicro (.config p d :: rest) s = runMicro rest ((s.setDir p d).emit (.CFG p d)).advance :=
  runMicro_cons_of_advance (by simp)

@[simp] theorem runMicro_write (p : OutPin) (v : Level) (rest : List MicroOp) (s : State) :
    runMicro (.write p v :: rest) s = runMicro rest ((s.setPin p v).emit (.W p v)).advance :=
  runMicro_cons_of_advance (by simp)

@[simp] theorem runMicro_drive (v : Word) (i : Nat) (rest : List MicroOp) (s : State) :
    runMicro (.drive v i :: rest) s =
      runMicro rest (((s.loadTx v i).setPin .DI (v.getLsbD i)).emit (.W .DI (v.getLsbD i))).advance :=
  runMicro_cons_of_advance (by simp)

@[simp] theorem runMicro_delay (n : Nat) (rest : List MicroOp) (s : State) :
    runMicro (.delay n :: rest) s = runMicro rest (s.emit (.D n)).advance :=
  runMicro_cons_of_advance (by simp)

@[simp] theorem runMicro_hold (i n : Nat) (rest : List MicroOp) (s : State) :
    runMicro (.hold i n :: rest) s = runMicro rest ((s.loadRx i).emit (.D n)).advance :=
  runMicro_cons_of_advance (by simp)

@[simp] theorem runMicro_sample (i : Nat) (rest : List MicroOp) (s : State) :
    runMicro (.sample i :: rest) s =
      runMicro rest ((s.takeLevel.storeRx i s.nextLevel).emit (.S s.nextLevel)).advance :=
  runMicro_cons_of_advance (by simp)

/-- A poll that sees `READY_LEVEL` goes on (R175). -/
theorem runMicro_poll_ready {rest : List MicroOp} {s : State} (h : s.nextLevel = s.cfg.readyLevel) :
    runMicro (.poll :: rest) s = runMicro rest (s.takeLevel.emit (.S s.nextLevel)).advance := by
  rw [runMicro_cons_of_advance] <;> simp [microStep_poll_ready h]

/-- A poll that does not see `READY_LEVEL` ends the step where it is (R175). -/
theorem runMicro_poll_notReady {rest : List MicroOp} {s : State} (h : s.nextLevel ≠ s.cfg.readyLevel) :
    runMicro (.poll :: rest) s = s.takeLevel.emit (.S s.nextLevel) := by
  simp [runMicro, microStep_poll_notReady h]

/-- `TX(v, n + 1)` (R100, R101): its events, `SK` = `DI` = 0 after it, nothing else but its own registers. -/
theorem runMicro_tx (T : Nat) (v : Word) (n : Nat) (rest : List MicroOp) (s : State) :
    runMicro (tx T v (n + 1) ++ rest) s =
      runMicro rest
        { s with
          tsr := v, tcnt := 0, sk := false, di := false,
          trace := s.trace ++ txEvents T v (n + 1), upc := s.upc + 6 * (n + 1) } := by
  induction n generalizing s with
  | zero => simp [tx, txEvents, State.emit, State.advance, State.setPin, State.loadTx]
  | succ n ih =>
    rw [tx, List.append_assoc]
    simp only [List.cons_append, List.nil_append, runMicro_drive, runMicro_delay, runMicro_write, ih]
    refine congrArg (runMicro rest) ?_
    simp only [State.emit, State.advance, State.setPin, State.loadTx, txEvents, List.append_assoc, List.cons_append,
      List.nil_append, State.mk.injEq, true_and, and_true]
    omega

/-- Storing samples from position `n - 1` down (R102, R171). -/
def storeSamples (r : Word) : Nat → List Level → Word
  | i + 1, b :: rest => storeSamples (setBit r i b) i rest
  | _, _ => r

/-! ### The environment's answers -/

theorem nextLevel_congr {s t : State} (h : s.doScript = t.doScript) (k : s.drawn = t.drawn) : s.nextLevel = t.nextLevel := by
  simp [State.nextLevel, h, k]

/-- Answering a sample changes the environment's script and nothing else. -/
theorem takeLevel_eq (s : State) :
    s.takeLevel =
      { s with doScript := s.doScript.tail, drawn := if s.doScript = [] then s.drawn + 1 else s.drawn } := by
  unfold State.takeLevel
  cases h : s.doScript <;> simp

/-- Answering samples changes the environment's script and nothing else. -/
theorem takeLevels_eq (n : Nat) (s : State) :
    State.takeLevels n s =
      { s with doScript := (State.takeLevels n s).doScript, drawn := (State.takeLevels n s).drawn } := by
  induction n generalizing s with
  | zero => rfl
  | succ n ih =>
    rw [State.takeLevels, ih, takeLevel_eq]

/-- What the environment answers depends on the script and the count of free levels alone. -/
theorem takeLevels_congr (n : Nat) {s t : State} (h : s.doScript = t.doScript) (k : s.drawn = t.drawn) :
    State.levels n s = State.levels n t ∧ (State.takeLevels n s).doScript = (State.takeLevels n t).doScript ∧
      (State.takeLevels n s).drawn = (State.takeLevels n t).drawn := by
  induction n generalizing s t with
  | zero => exact ⟨rfl, h, k⟩
  | succ n ih =>
    obtain ⟨h1, h2, h3⟩ := ih (s := s.takeLevel) (t := t.takeLevel) (by simp [h]) (by simp [h, k])
    exact ⟨by simp [State.levels, nextLevel_congr h k, h1], h2, h3⟩

@[simp] theorem levels_length (n : Nat) (s : State) : (State.levels n s).length = n := by
  induction n generalizing s with
  | zero => rfl
  | succ n ih => simp [State.levels, ih]

/-- One bit of `RX` (R102). -/
theorem runMicro_rxBit (T i : Nat) (rest : List MicroOp) (s : State) :
    runMicro ([.hold i T, .write .SK true, .delay T, .sample i, .write .SK false] ++ rest) s =
      runMicro rest
        { s.takeLevel with
          rsr := setBit s.rsr i s.nextLevel, tcnt := BitVec.ofNat 5 i, sk := false,
          trace := s.trace ++ rxEvents T [s.nextLevel], upc := s.upc + 5 } := by
  simp only [List.cons_append, List.nil_append, runMicro_hold, runMicro_delay, runMicro_write, runMicro_sample]
  refine congrArg (runMicro rest) ?_
  rw [nextLevel_congr (t := s) (by simp) (by simp), takeLevel_eq, takeLevel_eq]
  simp only [State.emit, State.advance, State.setPin, State.loadRx, State.storeRx, rxEvents, List.append_assoc, List.cons_append,
    List.nil_append]

/-- `RX(n)` (R102, R103): its events, the samples stored from the top down, `SK` = 0 after it, `CS` and `DI` untouched. -/
theorem runMicro_rx (T : Nat) (n : Nat) (rest : List MicroOp) (s : State) :
    runMicro (rx T (n + 1) ++ rest) s =
      runMicro rest
        { State.takeLevels (n + 1) s with
          rsr := storeSamples s.rsr (n + 1) (State.levels (n + 1) s), tcnt := 0, sk := false,
          trace := s.trace ++ rxEvents T (State.levels (n + 1) s), upc := s.upc + 5 * (n + 1) } := by
  induction n generalizing s with
  | zero =>
    rw [rx, List.append_assoc, runMicro_rxBit]
    rfl
  | succ n ih =>
    rw [rx, List.append_assoc, runMicro_rxBit, ih]
    refine congrArg (runMicro rest) ?_
    obtain ⟨h1, h2, h3⟩ := takeLevels_congr (n + 1) (t := s.takeLevel)
      (s := { s.takeLevel with
          rsr := setBit s.rsr (n + 1) s.nextLevel, tcnt := BitVec.ofNat 5 (n + 1), sk := false,
          trace := s.trace ++ rxEvents T [s.nextLevel], upc := s.upc + 5 }) rfl rfl
    rw [takeLevels_eq, h1, h2, h3]
    conv_rhs => rw [State.takeLevels, takeLevels_eq, takeLevel_eq]
    simp only [takeLevel_eq s, State.levels, rxEvents, storeSamples, List.append_assoc, List.cons_append, List.nil_append,
      State.mk.injEq, true_and, and_true]
    omega

end Sys2Proof.Machine
end

