-- ==== Sys2Proof/Laws/Exec.lean ====
section
/-! SUPPORT. What an instruction answers: when it is accepted, and the state it leaves, operation by operation. -/

namespace Sys2Proof.Machine

/-! ### Acceptance -/

/-- The state an accepted instruction leaves: its micro-program run from the accept step. -/
def started (i : Instr) (s : State) : State :=
  runMicro (progOf (acceptStep i.op (latched i s))) (acceptStep i.op (latched i s))

/-- Latching operands writes the operand latches alone. -/
theorem latched_eq (i : Instr) (s : State) :
    latched i s = { s with aL := (latched i s).aL, vL := (latched i s).vL, mL := (latched i s).mL } := by
  cases i <;> rfl

@[simp] theorem latched_ew (i : Instr) (s : State) : (latched i s).ew = s.ew := by rw [latched_eq]
@[simp] theorem latched_mode (i : Instr) (s : State) : (latched i s).mode = s.mode := by rw [latched_eq]
@[simp] theorem latched_cs (i : Instr) (s : State) : (latched i s).cs = s.cs := by rw [latched_eq]
@[simp] theorem latched_sk (i : Instr) (s : State) : (latched i s).sk = s.sk := by rw [latched_eq]
@[simp] theorem latched_di (i : Instr) (s : State) : (latched i s).di = s.di := by rw [latched_eq]
@[simp] theorem latched_dir (i : Instr) (s : State) : (latched i s).dir = s.dir := by rw [latched_eq]
@[simp] theorem latched_tsr (i : Instr) (s : State) : (latched i s).tsr = s.tsr := by rw [latched_eq]
@[simp] theorem latched_tcnt (i : Instr) (s : State) : (latched i s).tcnt = s.tcnt := by rw [latched_eq]
@[simp] theorem latched_rsr (i : Instr) (s : State) : (latched i s).rsr = s.rsr := by rw [latched_eq]
@[simp] theorem latched_op (i : Instr) (s : State) : (latched i s).op = s.op := by rw [latched_eq]
@[simp] theorem latched_upc (i : Instr) (s : State) : (latched i s).upc = s.upc := by rw [latched_eq]
@[simp] theorem latched_busy (i : Instr) (s : State) : (latched i s).busy = s.busy := by rw [latched_eq]
@[simp] theorem latched_cfg (i : Instr) (s : State) : (latched i s).cfg = s.cfg := by rw [latched_eq]
@[simp] theorem latched_constructed (i : Instr) (s : State) : (latched i s).constructed = s.constructed := by rw [latched_eq]
@[simp] theorem latched_trace (i : Instr) (s : State) : (latched i s).trace = s.trace := by rw [latched_eq]
@[simp] theorem latched_ret (i : Instr) (s : State) : (latched i s).ret = s.ret := by rw [latched_eq]
@[simp] theorem latched_doScript (i : Instr) (s : State) : (latched i s).doScript = s.doScript := by rw [latched_eq]
@[simp] theorem latched_drawn (i : Instr) (s : State) : (latched i s).drawn = s.drawn := by rw [latched_eq]
@[simp] theorem latched_host (i : Instr) (s : State) : (latched i s).host = s.host := by rw [latched_eq]

@[simp] theorem latched_refusalOf (i : Instr) (o : Op) (s : State) : refusalOf o (latched i s) = refusalOf o s := by
  rw [latched_eq]; rfl

theorem refusalOf_eq_none_iff (o : Op) (s : State) :
    refusalOf o s = none ↔
      s.busy = false ∧ (if o = .construct then s.cfg.pinsOk = true else s.constructed = true) := by
  unfold refusalOf
  cases s.busy <;> by_cases h : o = .construct <;> simp [h]

theorem frameRefusal_eq_none_iff {i : Instr} {m : Mode} (h : i.frameMode = some m) (s : State) :
    frameRefusal i s = none ↔ Presentable i s := by
  unfold frameRefusal Presentable
  rw [h]
  cases hw : i.frameReadWidth <;> cases i.wf <;> by_cases hm : m = s.mode <;>
    simp [hm, eq_comm]

/-- A host operation is one transaction on the latched state. -/
theorem exec_host {i : Instr} (h : i.frameMode = none) (s : State) : exec i s = operate i.op (latched i s) := by
  cases i <;> first | rfl | simp [Instr.frameMode] at h

/-- A wire frame is the operation that emits it, on the latched state. -/
theorem exec_frame {i : Instr} {m : Mode} (h : i.frameMode = some m) (s : State) :
    exec i s = operateFrame i (latched i s) := by
  cases i <;> first | rfl | simp [Instr.frameMode] at h

@[simp] theorem latched_frameRefusal (i : Instr) (s : State) : frameRefusal i (latched i s) = frameRefusal i s := by
  rw [latched_eq]; rfl

theorem presentable_host {i : Instr} (h : i.frameMode = none) (s : State) : Presentable i s := by
  refine ⟨?_, by simp [h], ?_⟩ <;> cases i <;> simp_all [Instr.frameMode, Instr.wf, Instr.frameReadWidth]

/-- An accepted instruction answers a next state. -/
theorem exec_started {i : Instr} {s : State} (h : refusalOf i.op s = none) (hp : Presentable i s) :
    exec i s = .next (started i s) := by
  cases hm : i.frameMode with
  | none => simp [exec_host hm, operate, h, started]
  | some m => simp [exec_frame hm, operateFrame, operate, h, started, (frameRefusal_eq_none_iff hm s).2 hp]

/-- An instruction that answers a next state was accepted. -/
theorem exec_next {i : Instr} {s t : State} (h : exec i s = .next t) :
    refusalOf i.op s = none ∧ Presentable i s ∧ t = started i s := by
  cases hm : i.frameMode with
  | none =>
    rw [exec_host hm, operate, latched_refusalOf] at h
    cases hr : refusalOf i.op s with
    | some r => simp [hr] at h
    | none =>
      simp only [hr, Host.Outcome.next.injEq] at h
      exact ⟨rfl, presentable_host hm s, h.symm⟩
  | some m =>
    rw [exec_frame hm, operateFrame, operate, latched_refusalOf, latched_frameRefusal] at h
    cases hr : refusalOf i.op s with
    | some r => simp [hr] at h
    | none =>
      cases hf : frameRefusal i s with
      | some r => simp [hr, hf] at h
      | none =>
        simp only [hr, hf, Host.Outcome.next.injEq] at h
        exact ⟨rfl, (frameRefusal_eq_none_iff hm s).1 hf, h.symm⟩

theorem refusalOf_ready {i : Instr} {s : State} (h : Ready s) (ho : i.op ≠ .construct) : refusalOf i.op s = none :=
  (refusalOf_eq_none_iff _ _).2 ⟨h.1, by simp [ho, h.2]⟩

/-! ### What the programs do -/

theorem OW_pos (m : Mode) : 0 < OW m := by cases m <;> decide
theorem DW_pos (m : Mode) : 0 < DW m := by cases m <;> decide
theorem readAddrBits_pos (w : ReadAddrWidth) : 0 < readAddrBits w := by cases w <;> decide

/-- `TX(v, n)` for any `n ≥ 1` (R100, R101). -/
theorem runMicro_tx_pos (T : Nat) (v : Word) {n : Nat} (h : 0 < n) (rest : List MicroOp) (s : State) :
    runMicro (tx T v n ++ rest) s =
      runMicro rest
        { s with
          tsr := v, tcnt := 0, sk := false, di := false, trace := s.trace ++ txEvents T v n, upc := s.upc + 6 * n } := by
  obtain ⟨k, rfl⟩ : ∃ k, n = k + 1 := ⟨n - 1, by omega⟩
  exact runMicro_tx T v k rest s

/-- Select, start bit and command field (R107, R172). -/
theorem runMicro_frame (T : Nat) (m : Mode) (cf : Word) (rest : List MicroOp) (s : State) :
    runMicro (frame T m cf ++ rest) s =
      runMicro rest
        { s with
          cs := true, tsr := cf, tcnt := 0, sk := false, di := false,
          trace := s.trace ++ commandEvents T m cf, upc := s.upc + (7 + 6 * OW m) } := by
  rw [frame]
  simp only [List.append_assoc, List.cons_append, List.nil_append, runMicro_write]
  rw [runMicro_tx_pos _ _ (by decide), runMicro_tx_pos _ _ (OW_pos m)]
  refine congrArg (runMicro rest) ?_
  simp only [State.emit, State.advance, State.setPin, commandEvents, List.append_assoc, List.cons_append, List.nil_append,
    State.mk.injEq, true_and, and_true]
  omega

/-- `W(CS, 0)`, then a completion wait whose first sample is `READY_LEVEL` (R104). -/
theorem runMicro_wait_ready {s : State} (h : s.nextLevel = s.cfg.readyLevel) :
    runMicro (.write .CS false :: wait) s =
      completeStep
        { s.takeLevel with
          cs := false, upc := s.upc + 4,
          trace := s.trace ++ [.W .CS false, .W .CS true, .S s.cfg.readyLevel, .W .CS false] } := by
  rw [wait]
  simp only [runMicro_write]
  rw [runMicro_poll_ready (by rw [nextLevel_congr (t := s) (by simp) (by simp)]; simpa using h)]
  rw [nextLevel_congr (t := s) (by simp) (by simp), h]
  simp only [runMicro_write, runMicro_nil]
  refine congrArg completeStep ?_
  rw [takeLevel_eq, takeLevel_eq]
  simp [State.emit, State.advance, State.setPin]

/-- `W(CS, 0)`, then a completion wait whose first sample is not `READY_LEVEL` (R104, R175). -/
theorem runMicro_wait_notReady {s : State} (h : s.nextLevel ≠ s.cfg.readyLevel) :
    runMicro (.write .CS false :: wait) s =
      { s.takeLevel with
        cs := true, upc := s.upc + 2, trace := s.trace ++ [.W .CS false, .W .CS true, .S s.nextLevel] } := by
  rw [wait]
  simp only [runMicro_write]
  rw [runMicro_poll_notReady (by rw [nextLevel_congr (t := s) (by simp) (by simp)]; simpa using h)]
  rw [nextLevel_congr (t := s) (by simp) (by simp), takeLevel_eq, takeLevel_eq]
  simp [State.emit, State.advance, State.setPin]

/-- The command of a mutating operation, up to its last frame bit (R140, R172). -/
def mutatingProgram (s : State) : List MicroOp :=
  match s.op with
  | .eral => frame s.cfg.tHold s.mode (codeField s.mode CC_ERAL)
  | .wral => frame s.cfg.tHold s.mode (codeField s.mode CC_WRAL) ++ tx s.cfg.tHold (dataField s.mode s.vL) (DW s.mode)
  | .write =>
    frame s.cfg.tHold s.mode (addrField s.mode OPC_WRITE s.aL) ++ tx s.cfg.tHold (dataField s.mode s.vL) (DW s.mode)
  | .erase => frame s.cfg.tHold s.mode (addrField s.mode OPC_ERASE s.aL)
  | .construct | .setmode | .ewen | .ewds | .query | .read => []

/-- R140: the shape of every mutating operation once past the gate. -/
theorem progOf_mutating {s : State} (h : s.op.mutating = true) (he : s.ew = true) :
    progOf s = mutatingProgram s ++ (.write .CS false :: wait) := by
  cases ho : s.op <;>
    simp [ho, Op.mutating] at h <;>
    simp [progOf, mutatingProgram, ho, he, gated, progEral, progWral, progWrite, progErase]

/-- R133, R176: the gate. -/
theorem progOf_gated {s : State} (h : s.op.mutating = true) (he : s.ew = false) : progOf s = [] := by
  cases ho : s.op <;> simp [ho, Op.mutating] at h <;> simp [progOf, ho, he, gated]

@[simp] theorem tx_length (T : Nat) (v : Word) (n : Nat) : (tx T v n).length = 6 * n := by
  induction n with
  | zero => rfl
  | succ n ih => simp [tx, ih]; omega

@[simp] theorem rx_length (T n : Nat) : (rx T n).length = 5 * n := by
  induction n with
  | zero => rfl
  | succ n ih => simp [rx, ih]; omega

@[simp] theorem frame_length (T : Nat) (m : Mode) (v : Word) : (frame T m v).length = 7 + 6 * OW m := by
  simp [frame]; omega

/-- What a mutating operation's command does (R140 to R144): its events, the three lines at `CS` = 1, `SK` = `DI` = 0, the transmitter's
registers and `UPC`. -/
theorem runMicro_mutating {s : State} (h : s.op.mutating = true) (rest : List MicroOp) :
    ∃ v, runMicro (mutatingProgram s ++ rest) s =
      runMicro rest
        { s with
          cs := true, tsr := v, tcnt := 0, sk := false, di := false, upc := s.upc + (mutatingProgram s).length,
          trace := s.trace ++ mutatingCommand s.cfg.tHold s.mode s.op s.aL s.vL } := by
  cases ho : s.op <;> simp [ho, Op.mutating] at h
  · exact ⟨codeField s.mode CC_ERAL, by simp [mutatingProgram, mutatingCommand, ho, runMicro_frame]⟩
  · refine ⟨dataField s.mode s.vL, ?_⟩
    simp only [mutatingProgram, mutatingCommand, ho, List.append_assoc, runMicro_frame, runMicro_tx_pos _ _ (DW_pos s.mode)]
    refine congrArg (runMicro rest) ?_
    simp; omega
  · refine ⟨dataField s.mode s.vL, ?_⟩
    simp only [mutatingProgram, mutatingCommand, ho, List.append_assoc, runMicro_frame, runMicro_tx_pos _ _ (DW_pos s.mode)]
    refine congrArg (runMicro rest) ?_
    simp; omega
  · exact ⟨addrField s.mode OPC_ERASE s.aL, by simp [mutatingProgram, mutatingCommand, ho, runMicro_frame]⟩

/-! ### The read result -/

theorem ofWireBits_foldl (bits : List Level) (acc : Nat) :
    bits.foldl (fun acc b => 2 * acc + b.toNat) acc = acc * 2 ^ bits.length + ofWireBits bits := by
  unfold ofWireBits
  induction bits generalizing acc with
  | nil => simp
  | cons b rest ih =>
    rw [List.foldl_cons, List.foldl_cons, ih, ih (2 * 0 + b.toNat)]
    simp only [List.length_cons, Nat.pow_succ]
    ring

theorem ofWireBits_cons (b : Level) (rest : List Level) :
    ofWireBits (b :: rest) = b.toNat * 2 ^ rest.length + ofWireBits rest := by
  have := ofWireBits_foldl rest b.toNat
  simpa [ofWireBits] using this

theorem ofWireBits_lt (bits : List Level) : ofWireBits bits < 2 ^ bits.length := by
  induction bits with
  | nil => simp [ofWireBits]
  | cons b rest ih =>
    rw [ofWireBits_cons, List.length_cons, Nat.pow_succ]
    cases b <;> simp <;> omega

/-- Storing a bit where the register and all below are 0 adds its weight. -/
theorem setBit_toNat {r : Word} {i N : Nat} (hi : i < 16) (h : r.toNat = N * 2 ^ (i + 1)) (b : Level) :
    (setBit r i b).toNat = (2 * N + b.toNat) * 2 ^ i := by
  have hr : r.toNat = (2 * N) <<< i := by rw [h, Nat.shiftLeft_eq, Nat.pow_succ]; ring
  have hlt : r.toNat < 2 ^ 16 := r.isLt
  cases b with
  | true =>
    have h1 : (1#16 <<< i).toNat = 2 ^ i := by
      rw [BitVec.toNat_shiftLeft, Nat.shiftLeft_eq, Nat.mod_eq_of_lt] <;> simp
      exact Nat.pow_lt_pow_right (a := 2) (by decide) hi
    rw [setBit, if_pos rfl, BitVec.toNat_or, h1, hr]
    have h2 : 2 ^ i = 1 <<< i := by rw [Nat.shiftLeft_eq, Nat.one_mul]
    rw [h2, ← Nat.shiftLeft_or_distrib, Nat.shiftLeft_eq, Nat.shiftLeft_eq, Nat.one_mul]
    have h3 : (2 * N) ||| 1 = 2 * N + 1 := by
      have := Nat.two_pow_add_eq_or_of_lt (i := 1) (b := 1) (by decide) N
      simpa using this.symm
    simp [h3]
  | false =>
    have hz : setBit r i false = r := by
      rw [setBit, if_neg (by simp)]
      apply BitVec.eq_of_getLsbD_eq
      intro j hj
      rw [BitVec.getLsbD_and, BitVec.getLsbD_not, BitVec.getLsbD_shiftLeft]
      by_cases hji : j = i
      · subst hji
        have : r.getLsbD j = false := by
          rw [BitVec.getLsbD, h, Nat.testBit_mul_two_pow]
          simp
        simp [this]
      · have : (1#16).getLsbD (j - i) = decide (j - i = 0) := by simp [BitVec.getLsbD_one]
        rw [this]
        by_cases hlt : j < i <;> simp [hj, hlt]
        omega
    rw [hz, h, Nat.pow_succ]
    simp
    ring

/-- `RSR[i] <- b` writes the bit at `i` and no other (R171). -/
theorem setBit_getLsbD (r : Word) (i : Nat) (b : Level) {j : Nat} (hj : j < 16) :
    (setBit r i b).getLsbD j = if j = i then b else r.getLsbD j := by
  cases b <;>
    simp only [setBit, if_true, Bool.false_eq_true, if_false, BitVec.getLsbD_or, BitVec.getLsbD_and, BitVec.getLsbD_not,
      BitVec.getLsbD_shiftLeft, hj, BitVec.getLsbD_one]
  all_goals
    by_cases h : j = i
    · subst h; simp
    · by_cases h2 : j < i
      · simp [h, h2]
      · simp [h, show j - i ≠ 0 by omega]

/-- Storing `n` samples into a register whose bits below `n` are 0 and whose rest is `N` spells them after `N`. -/
theorem storeSamples_toNat (bits : List Level) (r : Word) (N : Nat) (hn : bits.length ≤ 16)
    (h : r.toNat = N * 2 ^ bits.length) :
    (storeSamples r bits.length bits).toNat = N * 2 ^ bits.length + ofWireBits bits := by
  induction bits generalizing r N with
  | nil => simpa [storeSamples, ofWireBits] using h
  | cons b rest ih =>
    simp only [List.length_cons] at *
    rw [storeSamples, ih (setBit r rest.length b) (2 * N + b.toNat) (by omega) (setBit_toNat (by omega) h b), ofWireBits_cons,
      Nat.pow_succ]
    ring

/-- A receiver that starts from 0 returns the samples, first one most significant (R102, R103 (d), R161). -/
theorem storeSamples_zero (bits : List Level) (hn : bits.length ≤ 16) :
    storeSamples 0 bits.length bits = ofSamples bits := by
  apply BitVec.eq_of_toNat_eq
  rw [storeSamples_toNat bits 0 0 hn (by simp), ofSamples, BitVec.toNat_ofNat, Nat.mod_eq_of_lt]
  · simp
  · exact Nat.lt_of_lt_of_le (ofWireBits_lt bits) (Nat.pow_le_pow_right (by decide) hn)

/-! ### Steps -/

/-- The complete step of a mutating operation (R145, R178). -/
theorem completeStep_mutating {s : State} (h : s.op.mutating = true) :
    completeStep s = { s with busy := false, ret := .nothing } := by
  have hc : commit s = commitMutating s := by
    cases ho : s.op <;> simp [ho, Op.mutating] at h <;> simp [commit, ho]
  rw [completeStep, hc]
  rfl

/-- What a step can be (R170 to R175): the operation in progress, a wait for the host, or one presented instruction. -/
theorem step_cases {s t : State} (h : step s = .next t) :
    (s.busy = true ∧ resume s = .next t) ∨
      (s.busy = false ∧ s.host = [] ∧ t = s) ∨
      ∃ p rest i, s.busy = false ∧ s.host = p :: rest ∧ decode p = .instr i ∧ exec i { s with host := rest } = .next t := by
  unfold step at h
  cases hb : s.busy with
  | true => exact .inl ⟨rfl, by simpa [hb] using h⟩
  | false =>
    simp only [hb, Bool.false_eq_true, if_false] at h
    cases hh : s.host with
    | nil => simp only [hh, Host.Outcome.next.injEq] at h; exact .inr (.inl ⟨rfl, rfl, h.symm⟩)
    | cons p rest =>
      simp only [hh] at h
      cases hd : decode p with
      | rejected why => simp [hd] at h
      | instr i => simp only [hd] at h; exact .inr (.inr ⟨p, rest, i, rfl, rfl, hd, h⟩)

/-- How a run of a micro-program ends: completed, every micro-operation performed; or stopped at a poll. What it never writes is kept. -/
theorem runMicro_cases (us : List MicroOp) (s : State) :
    (∃ u es, MicroKeeps s u ∧ u.trace = s.trace ++ es ∧ runMicro us s = completeStep u) ∨
      (∃ es, MicroKeeps s (runMicro us s) ∧ (runMicro us s).trace = s.trace ++ es) := by
  induction us generalizing s with
  | nil => exact .inl ⟨s, [], .rfl' s, by simp, rfl⟩
  | cons u rest ih =>
    obtain ⟨e, he⟩ := microStep_trace u s
    rcases microStep_upc u s with h | ⟨-, -, h⟩
    · rw [runMicro_cons_of_advance h]
      rcases ih (microStep u s) with ⟨v, es, k, ht, hr⟩ | ⟨es, k, ht⟩
      · exact .inl ⟨v, e :: es, (microStep_keeps u s).trans k, by simp [ht, he], hr⟩
      · exact .inr ⟨e :: es, (microStep_keeps u s).trans k, by simp [ht, he]⟩
    · have hr : runMicro (u :: rest) s = microStep u s := by simp [runMicro, h]
      exact .inr ⟨[e], hr ▸ microStep_keeps u s, by rw [hr, he]⟩

/-- The complete step keeps the parameters, the trace, the environment and the host's list (R178). -/
theorem completeStep_keeps (s : State) :
    (completeStep s).cfg = s.cfg ∧ (completeStep s).trace = s.trace ∧ (completeStep s).host = s.host ∧
      (completeStep s).doScript = s.doScript ∧ (completeStep s).drawn = s.drawn ∧ (completeStep s).busy = false := by
  unfold completeStep commit
  cases s.op <;> exact ⟨rfl, rfl, rfl, rfl, rfl, rfl⟩

end Sys2Proof.Machine
end

