-- ==== Sys2Proof/Laws/Outcome.lean ====
section
/-! SUPPORT. What an accepted mutating operation comes to before its completion wait, and the latched operands by operation. -/

namespace Sys2Proof.Machine

/-- The operand latches an operation reads hold its operands (R170, R173). -/
theorem latched_operands (i : Instr) (s : State) :
    (i.op = .write ∨ i.op = .erase ∨ i.op = .read → (latched i s).aL = addrOf i) ∧
      (i.op = .write ∨ i.op = .wral → (latched i s).vL = valueOf i) := by
  cases i <;> simp [Instr.op, latched, addrOf, valueOf]

theorem clearForRead_mutating {o : Op} (h : o.mutating = true) (r : Word) : clearForRead o r = r := by
  unfold clearForRead
  split <;> simp_all [Op.mutating]

theorem mutatingCommand_latched (T : Nat) (m : Mode) (i : Instr) (s : State) :
    mutatingCommand T m i.op (latched i s).aL (latched i s).vL = mutatingCommand T m i.op (addrOf i) (valueOf i) := by
  obtain ⟨a, b⟩ := latched_operands i s
  cases ho : i.op <;> simp [ho] at a b <;> simp [mutatingCommand, *]

/-- R140: a mutating operation past the gate, run up to its `W(CS, 0)` and completion wait. -/
theorem started_mutating {i : Instr} {s : State} (hm : i.op.mutating = true) (he : s.ew = true) :
    ∃ v : Word, started i s = runMicro (.write .CS false :: wait)
      { s with
        op := i.op, aL := (latched i s).aL, vL := (latched i s).vL, mL := (latched i s).mL, busy := true,
        cs := true, sk := false, di := false, tsr := v, tcnt := 0,
        upc := (mutatingProgram (acceptStep i.op (latched i s))).length,
        trace := s.trace ++ mutatingCommand s.cfg.tHold s.mode i.op (addrOf i) (valueOf i) } := by
  rw [started, progOf_mutating (by simpa using hm) (by simp [he])]
  obtain ⟨v, e⟩ := runMicro_mutating (s := acceptStep i.op (latched i s)) (by simpa using hm) (.write .CS false :: wait)
  refine ⟨v, e.trans (congrArg _ ?_)⟩
  simp only [acceptStep, clearForRead_mutating hm, Nat.zero_add]
  rw [latched_eq i s]
  simp only [mutatingCommand_latched]

/-- A step of a machine inside its completion wait performs the poll (R104, R175). -/
theorem step_waiting {s : State} (h : Waiting s) : step s = .next (runMicro [.poll, .write .CS false] s) := by
  obtain ⟨hb, -, -, hd, hl, -⟩ := h
  simp [step, hb, resume, hl, hd]

end Sys2Proof.Machine
end

