-- ==== Sys2Proof/Laws/Wire.lean ====
section
/-! SUPPORT. Bits in wire order and numbers (R54): each way round trips, and what the decoder does with a frame of each length. -/

namespace Sys2Proof

@[simp] theorem wireBits_length (v n : Nat) : (wireBits v n).length = n := by
  induction n with
  | zero => rfl
  | succ n ih => simp [wireBits, ih]

@[simp] theorem wire_length {n : Nat} (x : BitVec n) : (wire x).length = n := wireBits_length _ _

/-- A field of `n` bits depends on its value modulo `2^n` (R81 (d)). -/
theorem wireBits_congr (n : Nat) {v w : Nat} (h : v % 2 ^ n = w % 2 ^ n) : wireBits v n = wireBits w n := by
  induction n with
  | zero => rfl
  | succ n ih =>
    have low : v % 2 ^ n = w % 2 ^ n := by
      have := congrArg (· % 2 ^ n) h
      simpa [Nat.mod_mod_of_dvd, Nat.pow_succ] using this
    have top : v.testBit n = w.testBit n := by
      have := congrArg (fun x => Nat.testBit x n) h
      simpa [Nat.testBit_mod_two_pow] using this
    simp [wireBits, top, ih low]

/-- Reading back the bits of a number. -/
theorem ofWireBits_wireBits (v n : Nat) : ofWireBits (wireBits v n) = v % 2 ^ n := by
  induction n with
  | zero => simp [wireBits, ofWireBits]; omega
  | succ n ih =>
    rw [wireBits, Machine.ofWireBits_cons, ih, wireBits_length, Nat.mod_pow_succ]
    have : (v.testBit n).toNat = v / 2 ^ n % 2 := by
      rcases Nat.mod_two_eq_zero_or_one (v / 2 ^ n) with h | h <;> simp [Nat.testBit_eq_decide_div_mod_eq, h]
    rw [this, Nat.mul_comm]
    omega

/-- Spelling the number that bits spell. -/
theorem wireBits_ofWireBits (bits : List Level) : wireBits (ofWireBits bits) bits.length = bits := by
  induction bits with
  | nil => rfl
  | cons b rest ih =>
    have hl := Machine.ofWireBits_lt rest
    rw [List.length_cons, wireBits, Machine.ofWireBits_cons]
    congr 1
    · cases b
      · simp [Nat.testBit_eq_false_of_lt hl]
      · simp [Nat.testBit_two_pow_add_eq, Nat.testBit_eq_false_of_lt hl]
    · conv_rhs => rw [← ih]
      exact wireBits_congr _ (by simp)

theorem ofNat_ofWireBits_wire {n : Nat} (x : BitVec n) : BitVec.ofNat n (ofWireBits (wire x)) = x := by
  apply BitVec.eq_of_toNat_eq
  simp [wire, ofWireBits_wireBits]

theorem wire_ofNat_ofWireBits (bits : List Level) : wire (BitVec.ofNat bits.length (ofWireBits bits)) = bits := by
  rw [wire, BitVec.toNat_ofNat, Nat.mod_eq_of_lt (Machine.ofWireBits_lt bits), wireBits_ofWireBits]

/-! ### The decoder, by length of the frame (R71, R79, R87) -/

theorem decode_frame9 (f : BitVec 9) : decode (.frame (wire f)) = decodeX16 f := by
  simp [decode, decodeFrame, ofNat_ofWireBits_wire]

theorem decode_frame10 (f : BitVec 10) : decode (.frame (wire f)) = decodeX8 f := by
  simp [decode, decodeFrame, ofNat_ofWireBits_wire]

theorem decode_frame11 (f : BitVec 11) : decode (.frame (wire f)) = decodeA8 f := by
  simp [decode, decodeFrame, ofNat_ofWireBits_wire]

theorem decode_frame18 (f : BitVec 10) (d : BitVec 8) : decode (.frame (wire f ++ wire d)) = decodeX8Data f d := by
  have ht : (wire f ++ wire d).take 10 = wire f := List.take_left' (wire_length f)
  have hd : (wire f ++ wire d).drop 10 = wire d := List.drop_left' (wire_length f)
  simp only [decode, decodeFrame, List.length_append, wire_length, ht, hd, ofNat_ofWireBits_wire]
  rfl

theorem decode_frame25 (f : BitVec 9) (d : BitVec 16) : decode (.frame (wire f ++ wire d)) = decodeX16Data f d := by
  have ht : (wire f ++ wire d).take 9 = wire f := List.take_left' (wire_length f)
  have hd : (wire f ++ wire d).drop 9 = wire d := List.drop_left' (wire_length f)
  simp only [decode, decodeFrame, List.length_append, wire_length, ht, hd, ofNat_ofWireBits_wire]
  rfl

end Sys2Proof
end

