-- ==== Sys2Proof/Laws/PerInstr.lean ====
section
/-! SUPPORT. Laws stated of each instruction: its encoded form has the length the opcode table gives its row (R70, R71, R79, R87). -/

namespace Sys2Proof.Laws

/-- How many bits a presented form has: the 4 bits of `CMD` for a host operation (R70), else the frame's own. -/
def EncodedLength.bitsOf : Presented → Nat
  | .command _ _ _ _ => 4
  | .frame bits => bits.length

/-- The length of the frame an operation shifts out in mode `m`, from the widths of R4: start bit, command field, and `DW` data bits
for `WRITE` and `WRAL`; the `X16` `READ` with `RD16_AW` = 8 is the exception (R71, R79). -/
def EncodedLength.frameLength (i : Instr) (m : Mode) : Nat :=
  match i.op, i.frameReadWidth with
  | .read, some w => 1 + 2 + Machine.readAddrBits w
  | .wral, _ | .write, _ => 1 + Machine.OW m + Machine.DW m
  | _, _ => 1 + Machine.OW m

/-- R71, R79, R87: the encoding of `i` has the length of its kind of row. -/
def EncodedLength.Statement (i : Instr) : Prop :=
  EncodedLength.bitsOf (encode i) =
    match i.frameMode with
    | none => 4
    | some m => EncodedLength.frameLength i m

theorem EncodedLength.construct : EncodedLength.Statement .construct := rfl
theorem EncodedLength.setmode (m : Mode) : EncodedLength.Statement (.setmode m) := rfl
theorem EncodedLength.ewen : EncodedLength.Statement .ewen := rfl
theorem EncodedLength.ewds : EncodedLength.Statement .ewds := rfl
theorem EncodedLength.query : EncodedLength.Statement .query := rfl
theorem EncodedLength.eral : EncodedLength.Statement .eral := rfl
theorem EncodedLength.wral (v : Word) : EncodedLength.Statement (.wral v) := rfl
theorem EncodedLength.write (a : Addr) (v : Word) : EncodedLength.Statement (.write a v) := rfl
theorem EncodedLength.erase (a : Addr) : EncodedLength.Statement (.erase a) := rfl
theorem EncodedLength.read (a : Addr) : EncodedLength.Statement (.read a) := rfl
theorem EncodedLength.ewdsX16 (dc : BitVec 4) : EncodedLength.Statement (.ewdsX16 dc) := rfl
theorem EncodedLength.ewdsX8 (dc : BitVec 5) : EncodedLength.Statement (.ewdsX8 dc) := rfl
theorem EncodedLength.wralX16 (dc : BitVec 4) (d : BitVec 16) : EncodedLength.Statement (.wralX16 dc d) := rfl
theorem EncodedLength.wralX8 (dc : BitVec 5) (d : BitVec 8) : EncodedLength.Statement (.wralX8 dc d) := rfl
theorem EncodedLength.eralX16 (dc : BitVec 4) : EncodedLength.Statement (.eralX16 dc) := rfl
theorem EncodedLength.eralX8 (dc : BitVec 5) : EncodedLength.Statement (.eralX8 dc) := rfl
theorem EncodedLength.ewenX16 (dc : BitVec 4) : EncodedLength.Statement (.ewenX16 dc) := rfl
theorem EncodedLength.ewenX8 (dc : BitVec 5) : EncodedLength.Statement (.ewenX8 dc) := rfl
theorem EncodedLength.writeX16 (a : BitVec 6) (d : BitVec 16) : EncodedLength.Statement (.writeX16 a d) := rfl
theorem EncodedLength.writeX8 (a : BitVec 7) (d : BitVec 8) : EncodedLength.Statement (.writeX8 a d) := rfl
theorem EncodedLength.eraseX16 (a : BitVec 6) : EncodedLength.Statement (.eraseX16 a) := rfl
theorem EncodedLength.eraseX8 (a : BitVec 7) : EncodedLength.Statement (.eraseX8 a) := rfl
theorem EncodedLength.readX16 (a : BitVec 6) : EncodedLength.Statement (.readX16 a) := rfl
theorem EncodedLength.readX16A8 (a : BitVec 8) : EncodedLength.Statement (.readX16A8 a) := rfl
theorem EncodedLength.readX8 (a : BitVec 7) : EncodedLength.Statement (.readX8 a) := rfl

end Sys2Proof.Laws
end

