-- ==== Sys2Proof/Laws/Trace.lean ====
section
/-! SUPPORT. The derived views of a trace (R7) over appended traces and over the events of `TX`, `RX` and a command. -/

namespace Sys2Proof.Machine

theorem writes_append (a b : List Event) : writes (a ++ b) = writes a ++ writes b := by
  induction a with
  | nil => rfl
  | cons e a ih => cases e <;> simp [writes, ih]

theorem linesAfter_append (a b : List Event) (l : Lines) : linesAfter l (a ++ b) = linesAfter (linesAfter l a) b := by
  induction a generalizing l with
  | nil => rfl
  | cons e a ih => cases e <;> simp [linesAfter, ih]

theorem transitions_append (a b : List Event) (l : Lines) :
    transitions l (a ++ b) = transitions l a ++ transitions (linesAfter l a) b := by
  induction a generalizing l with
  | nil => rfl
  | cons e a ih =>
    cases e with
    | W p v =>
      simp only [List.cons_append, transitions, linesAfter]
      split
      · next h => rw [ih]; cases p <;> simp [Lines.get] at h <;> subst h <;> rfl
      · simp [ih]
    | CFG p d => simp [linesAfter, transitions, ih]
    | S b => simp [linesAfter, transitions, ih]
    | D n => simp [linesAfter, transitions, ih]

theorem pulses_append (a b : List Event) : pulses (a ++ b) = pulses a + pulses b := by
  induction a with
  | nil => simp [pulses]
  | cons e a ih =>
    cases e with
    | W p v => cases p <;> cases v <;> simp [pulses, ih]; omega
    | CFG p d => simp [pulses, ih]
    | S b => simp [pulses, ih]
    | D n => simp [pulses, ih]

@[simp] theorem pulses_tx (T : Nat) (v : Word) (n : Nat) : pulses (txEvents T v n) = n := by
  induction n with
  | zero => rfl
  | succ n ih => simp [txEvents, pulses, ih]

@[simp] theorem pulses_rx (T : Nat) (bits : List Level) : pulses (rxEvents T bits) = bits.length := by
  induction bits with
  | nil => rfl
  | cons b bits ih => simp [rxEvents, pulses, ih]

@[simp] theorem pulses_command (T : Nat) (m : Mode) (cf : Word) : pulses (commandEvents T m cf) = 1 + OW m := by
  simp [commandEvents, pulses_append, pulses]

/-- What the chip receives during `TX(v, n)` inside a select interval: the bits of the field (R101 (e)). -/
theorem framesFrom_tx (T : Nat) (v : Word) {n : Nat} (h : 0 < n) (di : Level) (cur : List Level) (es : List Event) :
    framesFrom true di cur (txEvents T v n ++ es) = framesFrom true false (cur ++ wireBits v.toNat n) es := by
  induction n generalizing di cur with
  | zero => omega
  | succ n ih =>
    simp only [txEvents, List.cons_append, List.nil_append, framesFrom, wireBits, if_true]
    rcases Nat.eq_zero_or_pos n with rfl | hn
    · simp [txEvents, wireBits, BitVec.getLsbD]
    · rw [ih hn]; simp [BitVec.getLsbD]

/-- What the chip receives during `RX`: the level `DI` was left at, once per bit (R103 (e)). -/
theorem framesFrom_rx (T : Nat) (bits : List Level) (di : Level) (cur : List Level) (es : List Event) :
    framesFrom true di cur (rxEvents T bits ++ es) = framesFrom true di (cur ++ List.replicate bits.length di) es := by
  induction bits generalizing cur with
  | nil => simp [rxEvents]
  | cons b bits ih =>
    simp only [rxEvents, List.cons_append, List.nil_append, framesFrom, if_true]
    rw [ih]
    simp [List.replicate_succ]

/-- What the chip receives of a command up to its last field bit: the start bit and the field (R71). -/
theorem framesFrom_command (T : Nat) (m : Mode) (cf : Word) (es : List Event) :
    framesFrom false false [] (commandEvents T m cf ++ es) =
      framesFrom true false (true :: wireBits cf.toNat (OW m)) es := by
  simp only [commandEvents, List.append_assoc, List.cons_append, List.nil_append, framesFrom]
  rw [framesFrom_tx _ _ (by decide), framesFrom_tx _ _ (OW_pos m)]
  rfl

end Sys2Proof.Machine
end

