-- ==== Sys2Proof/Tests/Slice0.lean ====
section
/-! SUPPORT. The model's own tests. Expected values come from the frame patterns and codes of `30_encoding.md` and from the vectors of
`95_test_vectors.md`, not from the model. Then, for each obligation with hypotheses, a state and operands that meet them. -/

namespace Sys2Proof.Tests

open Sys2Proof.Machine

set_option Elab.async false

/-- Bits written as digits, first bit on the wire first. -/
def bits (l : List Nat) : List Level := l.map (fun d => d == 1)

/-- An idle, constructed engine in mode `m`, with `EW` = `ew`, against a chip that answers `script`. -/
def idle (m : Mode) (ew : Bool) (script : List Level) : State :=
  { State.reset with mode := m, ew := ew, doScript := script }

/-- The same with `RD16_AW` = 8, in mode `X16`. -/
def idleA8 (script : List Level) : State :=
  { idle .X16 false script with cfg := { defaultConfig with rd16aw := .eight } }

/-- Does an answer go on? -/
def goesOn : Result → Bool
  | .next _ => true
  | .fault _ => false
  | .refused _ => false

/-- The state an answer goes on to. -/
def stateOf : Result → State
  | .next t => t
  | .fault _ => State.reset
  | .refused _ => State.reset

theorem goesOn_next {r : Result} (h : goesOn r = true) : r = .next (stateOf r) := by
  cases r with
  | next t => rfl
  | fault r => cases h
  | refused r => cases h

/-- Is an answer this refusal? -/
def refusedWith (r : Refusal) : Result → Bool
  | .next _ => false
  | .fault _ => false
  | .refused q => q == r

/-- What a vector tells: `W`, `S`, level changes of `CS`, `SK`, `DI`, the result, `EW`, `MODE` and `BUSY` after. -/
structure Seen where
  w : Nat
  s : Nat
  cs : Nat
  sk : Nat
  di : Nat
  ret : Ret
  ew : Bool
  mode : Mode
  busy : Bool
deriving DecidableEq, Repr

/-- What is seen of an answer to a machine that started with the empty trace and the lines low. -/
def seen : Result → Option Seen
  | .next t => some
      { w := (writes t.trace).length, s := (samples t.trace).length,
        cs := transitionsOf .CS ⟨false, false, false⟩ t.trace, sk := transitionsOf .SK ⟨false, false, false⟩ t.trace,
        di := transitionsOf .DI ⟨false, false, false⟩ t.trace, ret := t.ret, ew := t.ew, mode := t.mode, busy := t.busy }
  | .fault _ => none
  | .refused _ => none

/-- The frames the chip receives in an answer to a machine that started with the empty trace and the lines low. -/
def received (r : Result) : List (List Level) := framesOf ⟨false, false, false⟩ (stateOf r).trace

/-! ### Well-formedness: each check refuses an ill-formed term -/

theorem test_wf_ewdsX16 : (Instr.ewdsX16 1).wf = false ∧ (Instr.ewdsX16 0).wf = true := by decide
theorem test_wf_ewdsX8 : (Instr.ewdsX8 1).wf = false ∧ (Instr.ewdsX8 0).wf = true := by decide
theorem test_wf_eralX16 : (Instr.eralX16 1).wf = false ∧ (Instr.eralX16 0).wf = true := by decide
theorem test_wf_eralX8 : (Instr.eralX8 1).wf = false ∧ (Instr.eralX8 0).wf = true := by decide
theorem test_wf_ewenX16 : (Instr.ewenX16 1).wf = false ∧ (Instr.ewenX16 0).wf = true := by decide
theorem test_wf_ewenX8 : (Instr.ewenX8 1).wf = false ∧ (Instr.ewenX8 0).wf = true := by decide
theorem test_wf_wralX16 : (Instr.wralX16 8 5).wf = false ∧ (Instr.wralX16 0 5).wf = true := by decide
theorem test_wf_wralX8 : (Instr.wralX8 8 5).wf = false ∧ (Instr.wralX8 0 5).wf = true := by decide
theorem test_wf_pins_distinct : Config.wf { defaultConfig with pins := { CS := 0, SK := 1, DI := 1, DO := 3 } } = false := by decide
theorem test_wf_pins_valid : Config.wf { defaultConfig with pins := { CS := 0, SK := 1, DI := 2, DO := 9 } } = false := by decide
theorem test_wf_hold : Config.wf { defaultConfig with tHold := 0 } = false := by decide
theorem test_wf_default : Config.wf defaultConfig = true := by decide

/-! ### Decoding: R70's codes; R73 to R79's patterns, bit by bit -/

theorem test_decode_construct : decode (.command 0 0 0 false) = .instr .construct := by decide
theorem test_decode_setmode : decode (.command 1 0 0 true) = .instr (.setmode .X8) ∧
    decode (.command 1 0 0 false) = .instr (.setmode .X16) := by decide
theorem test_decode_ewen : decode (.command 2 0 0 false) = .instr .ewen := by decide
theorem test_decode_ewds : decode (.command 3 0 0 false) = .instr .ewds := by decide
theorem test_decode_query : decode (.command 4 0 0 false) = .instr .query := by decide
theorem test_decode_eral : decode (.command 5 0 0 false) = .instr .eral := by decide
theorem test_decode_wral : decode (.command 6 0 0xA5C3 false) = .instr (.wral 0xA5C3) := by decide
theorem test_decode_write : decode (.command 7 0x05 0x1234 false) = .instr (.write 0x05 0x1234) := by decide
theorem test_decode_erase : decode (.command 8 0x10 0 false) = .instr (.erase 0x10) := by decide
theorem test_decode_read : decode (.command 9 0x2A 0 false) = .instr (.read 0x2A) := by decide
theorem test_decode_reserved : decode (.command 12 0 0 false) = .rejected (.reservedCode 12) := by decide

/-- R74: `1 00000000`. -/
theorem test_decode_ewdsX16 : decode (.frame (bits [1, 0, 0, 0, 0, 0, 0, 0, 0])) = .instr (.ewdsX16 0) := by decide
/-- R74: `1 000000000`. -/
theorem test_decode_ewdsX8 : decode (.frame (bits [1, 0, 0, 0, 0, 0, 0, 0, 0, 0])) = .instr (.ewdsX8 0) := by decide
/-- R76, V-WA1: `1 00010000 1010010111000011`. -/
theorem test_decode_wralX16 : decode (.frame (bits [1, 0, 0, 0, 1, 0, 0, 0, 0, 1, 0, 1, 0, 0, 1, 0, 1, 1, 1, 0, 0, 0, 0, 1, 1])) = .instr (.wralX16 0 0xA5C3) := by decide
/-- R76, V-WA2: `1 000100000 11000011`. -/
theorem test_decode_wralX8 : decode (.frame (bits [1, 0, 0, 0, 1, 0, 0, 0, 0, 0, 1, 1, 0, 0, 0, 0, 1, 1])) = .instr (.wralX8 0 0xC3) := by decide
/-- R75: `1 00100000`. -/
theorem test_decode_eralX16 : decode (.frame (bits [1, 0, 0, 1, 0, 0, 0, 0, 0])) = .instr (.eralX16 0) := by decide
/-- R75: `1 001000000`. -/
theorem test_decode_eralX8 : decode (.frame (bits [1, 0, 0, 1, 0, 0, 0, 0, 0, 0])) = .instr (.eralX8 0) := by decide
/-- R73: `1 00110000`. -/
theorem test_decode_ewenX16 : decode (.frame (bits [1, 0, 0, 1, 1, 0, 0, 0, 0])) = .instr (.ewenX16 0) := by decide
/-- R73: `1 001100000`. -/
theorem test_decode_ewenX8 : decode (.frame (bits [1, 0, 0, 1, 1, 0, 0, 0, 0, 0])) = .instr (.ewenX8 0) := by decide
/-- R77: `1 01000101 0001001000110100`. -/
theorem test_decode_writeX16 : decode (.frame (bits [1, 0, 1, 0, 0, 0, 1, 0, 1, 0, 0, 0, 1, 0, 0, 1, 0, 0, 0, 1, 1, 0, 1, 0, 0])) = .instr (.writeX16 5 0x1234) := by decide
/-- R77, V-WR6: `1 010000101 00110100`. -/
theorem test_decode_writeX8 : decode (.frame (bits [1, 0, 1, 0, 0, 0, 0, 1, 0, 1, 0, 0, 1, 1, 0, 1, 0, 0])) = .instr (.writeX8 5 0x34) := by decide
/-- R78, V-ER1: `1 11010000`. -/
theorem test_decode_eraseX16 : decode (.frame (bits [1, 1, 1, 0, 1, 0, 0, 0, 0])) = .instr (.eraseX16 0x10) := by decide
/-- R78, V-ER4: `1 110010000`. -/
theorem test_decode_eraseX8 : decode (.frame (bits [1, 1, 1, 0, 0, 1, 0, 0, 0, 0])) = .instr (.eraseX8 0x10) := by decide
/-- R79, V-RD2: `1 10 101010`. -/
theorem test_decode_readX16 : decode (.frame (bits [1, 1, 0, 1, 0, 1, 0, 1, 0])) = .instr (.readX16 0x2A) := by decide
/-- R79, V-RD9: `1 10 11000101`. -/
theorem test_decode_readX16A8 : decode (.frame (bits [1, 1, 0, 1, 1, 0, 0, 0, 1, 0, 1])) = .instr (.readX16A8 0xC5) := by decide
/-- R79, V-RD12: `1 100101010`. -/
theorem test_decode_readX8 : decode (.frame (bits [1, 1, 0, 0, 1, 0, 1, 0, 1, 0])) = .instr (.readX8 0x2A) := by decide
theorem test_decode_no_start : decode (.frame (bits [0, 0, 0, 1, 1, 0, 0, 0, 0])) = .rejected .noStartBit := by decide
theorem test_decode_length : decode (.frame (bits [1, 0, 0, 1, 1])) = .rejected (.noFrameOfLength 5) := by decide
theorem test_decode_data_missing : decode (.frame (bits [1, 0, 1, 0, 0, 0, 1, 0, 1])) = .rejected .dataMissing := by decide

/-- The opcode table's own words, operand bits 0 (`opcode_table.json`, columns "match" and "width", in whole bytes). -/
theorem test_decode_table :
    decodeTableWord 8 0x0 = some .construct ∧ decodeTableWord 8 0x1 = some (.setmode .X16) ∧ decodeTableWord 8 0x2 = some .ewen ∧
    decodeTableWord 8 0x3 = some .ewds ∧ decodeTableWord 8 0x4 = some .query ∧ decodeTableWord 8 0x5 = some .eral ∧
    decodeTableWord 8 0x6 = some (.wral 0) ∧ decodeTableWord 8 0x7 = some (.write 0 0) ∧ decodeTableWord 8 0x8 = some (.erase 0) ∧
    decodeTableWord 8 0x9 = some (.read 0) ∧ decodeTableWord 8 0xA = none ∧
    decodeTableWord 16 0x100 = some (.ewdsX16 0) ∧ decodeTableWord 16 0x200 = some (.ewdsX8 0) ∧
    decodeTableWord 32 0x110 = some (.wralX16 0 0) ∧ decodeTableWord 24 0x220 = some (.wralX8 0 0) ∧
    decodeTableWord 16 0x120 = some (.eralX16 0) ∧ decodeTableWord 16 0x240 = some (.eralX8 0) ∧
    decodeTableWord 16 0x130 = some (.ewenX16 0) ∧ decodeTableWord 16 0x260 = some (.ewenX8 0) ∧
    decodeTableWord 32 0x140 = some (.writeX16 0 0) ∧ decodeTableWord 24 0x280 = some (.writeX8 0 0) ∧
    decodeTableWord 16 0x1C0 = some (.eraseX16 0) ∧ decodeTableWord 16 0x380 = some (.eraseX8 0) ∧
    decodeTableWord 16 0x180 = some (.readX16 0) ∧ decodeTableWord 16 0x600 = some (.readX16A8 0) ∧
    decodeTableWord 16 0x300 = some (.readX8 0) := by decide +kernel

/-! ### One step of each instruction, from `95_test_vectors.md` -/

/-- V-C2: a second construction. -/
theorem test_construct : let t := stateOf (exec .construct (idle .X8 true []))
    t.trace = [.CFG .CS .output, .CFG .SK .output, .CFG .DI .output, .CFG .DO .input] ∧ t.ew = false ∧ t.mode = .X16 ∧ t.busy = false := by
  decide
/-- V-C1: the first construction, from a state where nothing is as after reset. -/
theorem test_construct_first : let s : State := { State.reset with
      constructed := false, ew := true, mode := .X8, cs := true, di := true, dir := ⟨.input, .input, .input, .output⟩ }
    let t := stateOf (exec .construct s)
    t.dir = ⟨.output, .output, .output, .input⟩ ∧ (t.cs, t.sk, t.di) = (false, false, false) ∧ t.constructed = true ∧ t.ew = false := by
  decide
/-- V-M1. -/
theorem test_setmode : seen (exec (.setmode .X8) (idle .X16 true [])) =
    some { w := 0, s := 0, cs := 0, sk := 0, di := 0, ret := .nothing, ew := true, mode := .X8, busy := false } := by
  decide +kernel
/-- V-M3. -/
theorem test_setmode_back : seen (exec (.setmode .X16) (idle .X8 true [])) =
    some { w := 0, s := 0, cs := 0, sk := 0, di := 0, ret := .nothing, ew := true, mode := .X16, busy := false } := by
  decide +kernel
/-- V-Q2. -/
theorem test_query : seen (exec .query (idle .X8 true [])) =
    some { w := 0, s := 0, cs := 0, sk := 0, di := 0, ret := .bit true, ew := true, mode := .X8, busy := false } := by
  decide +kernel
/-- V-Q1. -/
theorem test_query_off : seen (exec .query (idle .X16 false [])) =
    some { w := 0, s := 0, cs := 0, sk := 0, di := 0, ret := .bit false, ew := false, mode := .X16, busy := false } := by
  decide +kernel
/-- V-EN1. -/
theorem test_ewen : seen (exec .ewen (idle .X16 false [])) =
    some { w := 38, s := 0, cs := 2, sk := 18, di := 6, ret := .nothing, ew := true, mode := .X16, busy := false } := by
  decide +kernel
/-- V-EN3: `1 001100000`. -/
theorem test_ewen_frame : received (exec .ewen (idle .X8 false [])) = [bits [1, 0, 0, 1, 1, 0, 0, 0, 0, 0]] := by decide +kernel
/-- V-DS1. -/
theorem test_ewds : seen (exec .ewds (idle .X16 true [])) =
    some { w := 38, s := 0, cs := 2, sk := 18, di := 2, ret := .nothing, ew := false, mode := .X16, busy := false } := by
  decide +kernel
/-- V-DS3: `1 000000000`. -/
theorem test_ewds_frame : received (exec .ewds (idle .X8 true [])) = [bits [1, 0, 0, 0, 0, 0, 0, 0, 0, 0]] := by decide +kernel
/-- V-EA2 with the DO script 1: one sample. -/
theorem test_eral : seen (exec .eral (idle .X8 true [true])) =
    some { w := 44, s := 1, cs := 4, sk := 20, di := 4, ret := .nothing, ew := true, mode := .X8, busy := false } := by
  decide +kernel
/-- V-G1. -/
theorem test_eral_gated : seen (exec .eral (idle .X16 false [true])) =
    some { w := 0, s := 0, cs := 0, sk := 0, di := 0, ret := .nothing, ew := false, mode := .X16, busy := false } := by
  decide +kernel
/-- V-WA2, the value as the 16-bit port holds it. -/
theorem test_wral : seen (exec (.wral 0xA5C3) (idle .X8 true [true])) =
    some { w := 76, s := 1, cs := 4, sk := 36, di := 12, ret := .nothing, ew := true, mode := .X8, busy := false } := by
  decide +kernel
/-- V-WA1: `1 00010000 1010010111000011`. -/
theorem test_wral_frame : received (exec (.wral 0xA5C3) (idle .X16 true [true])) = [bits [1, 0, 0, 0, 1, 0, 0, 0, 0, 1, 0, 1, 0, 0, 1, 0, 1, 1, 1, 0, 0, 0, 0, 1, 1], []] := by decide +kernel
/-- V-WR1. -/
theorem test_write : seen (exec (.write 0x05 0x1234) (idle .X16 true [true])) =
    some { w := 104, s := 1, cs := 4, sk := 50, di := 18, ret := .nothing, ew := true, mode := .X16, busy := false } := by
  decide +kernel
/-- V-WR8, an address and a value that both truncate: `1 010000101 11111111`. -/
theorem test_write_frame : received (exec (.write 0x85 0x1FF) (idle .X8 true [true])) = [bits [1, 0, 1, 0, 0, 0, 0, 1, 0, 1, 1, 1, 1, 1, 1, 1, 1, 1], []] := by decide +kernel
/-- V-ER2. -/
theorem test_erase : seen (exec (.erase 0xFF) (idle .X16 true [true])) =
    some { w := 40, s := 1, cs := 4, sk := 18, di := 18, ret := .nothing, ew := true, mode := .X16, busy := false } := by
  decide +kernel
/-- V-ER5: `1 110010000`. -/
theorem test_erase_frame : received (exec (.erase 0x90) (idle .X8 true [true])) = [bits [1, 1, 1, 0, 0, 1, 0, 0, 0, 0], []] := by decide +kernel
/-- V-RD6. -/
theorem test_read : seen (exec (.read 0xC5) (idle .X16 true (bits [1, 0, 1, 1, 1, 1, 1, 0, 1, 1, 1, 0, 1, 1, 1, 1]))) =
    some { w := 70, s := 16, cs := 2, sk := 50, di := 8, ret := .value 0xBEEF, ew := true, mode := .X16, busy := false } := by
  decide +kernel
/-- V-RD14. -/
theorem test_read_x8 : seen (exec (.read 0x85) (idle .X8 false (bits [0, 0, 1, 1, 1, 1, 0, 0]))) =
    some { w := 58, s := 8, cs := 2, sk := 36, di := 8, ret := .value 0x003C, ew := false, mode := .X8, busy := false } := by
  decide +kernel
/-- V-DS2. -/
theorem test_ewdsX16 : seen (exec (.ewdsX16 0) (idle .X16 false [])) =
    some { w := 38, s := 0, cs := 2, sk := 18, di := 2, ret := .nothing, ew := false, mode := .X16, busy := false } := by
  decide +kernel
/-- V-DS3. -/
theorem test_ewdsX8 : seen (exec (.ewdsX8 0) (idle .X8 true [])) =
    some { w := 42, s := 0, cs := 2, sk := 20, di := 2, ret := .nothing, ew := false, mode := .X8, busy := false } := by
  decide +kernel
/-- V-WA1. -/
theorem test_wralX16 : seen (exec (.wralX16 0 0xA5C3) (idle .X16 true [true])) =
    some { w := 104, s := 1, cs := 4, sk := 50, di := 20, ret := .nothing, ew := true, mode := .X16, busy := false } := by
  decide +kernel
/-- V-WA2. -/
theorem test_wralX8 : seen (exec (.wralX8 0 0xC3) (idle .X8 true [true])) =
    some { w := 76, s := 1, cs := 4, sk := 36, di := 12, ret := .nothing, ew := true, mode := .X8, busy := false } := by
  decide +kernel
/-- V-EA1 with the DO script 1: one sample. -/
theorem test_eralX16 : seen (exec (.eralX16 0) (idle .X16 true [true])) =
    some { w := 40, s := 1, cs := 4, sk := 18, di := 4, ret := .nothing, ew := true, mode := .X16, busy := false } := by
  decide +kernel
/-- V-EA2 with the DO script 1: one sample. -/
theorem test_eralX8 : seen (exec (.eralX8 0) (idle .X8 true [true])) =
    some { w := 44, s := 1, cs := 4, sk := 20, di := 4, ret := .nothing, ew := true, mode := .X8, busy := false } := by
  decide +kernel
/-- V-EN2. -/
theorem test_ewenX16 : seen (exec (.ewenX16 0) (idle .X16 true [])) =
    some { w := 38, s := 0, cs := 2, sk := 18, di := 6, ret := .nothing, ew := true, mode := .X16, busy := false } := by
  decide +kernel
/-- V-EN3. -/
theorem test_ewenX8 : seen (exec (.ewenX8 0) (idle .X8 false [])) =
    some { w := 42, s := 0, cs := 2, sk := 20, di := 6, ret := .nothing, ew := true, mode := .X8, busy := false } := by
  decide +kernel
/-- V-WR5 with the DO script 1: one sample. -/
theorem test_writeX16 : seen (exec (.writeX16 0x3F 0xFFFF) (idle .X16 true [true])) =
    some { w := 104, s := 1, cs := 4, sk := 50, di := 48, ret := .nothing, ew := true, mode := .X16, busy := false } := by
  decide +kernel
/-- V-WR7 with the DO script 1: one sample. -/
theorem test_writeX8 : seen (exec (.writeX8 0x45 0xFF) (idle .X8 true [true])) =
    some { w := 76, s := 1, cs := 4, sk := 36, di := 26, ret := .nothing, ew := true, mode := .X8, busy := false } := by
  decide +kernel
/-- V-ER1. -/
theorem test_eraseX16 : seen (exec (.eraseX16 0x10) (idle .X16 true [true])) =
    some { w := 40, s := 1, cs := 4, sk := 18, di := 8, ret := .nothing, ew := true, mode := .X16, busy := false } := by
  decide +kernel
/-- V-ER6. -/
theorem test_eraseX8 : seen (exec (.eraseX8 0x7F) (idle .X8 true [true])) =
    some { w := 44, s := 1, cs := 4, sk := 20, di := 20, ret := .nothing, ew := true, mode := .X8, busy := false } := by
  decide +kernel
/-- V-RD4. -/
theorem test_readX16 : seen (exec (.readX16 0x3F) (idle .X16 true (bits [1, 0, 0, 0, 0, 0, 0, 0, 0, 0, 0, 0, 0, 0, 0, 1]))) =
    some { w := 70, s := 16, cs := 2, sk := 50, di := 16, ret := .value 0x8001, ew := true, mode := .X16, busy := false } := by
  decide +kernel
/-- V-RD9. -/
theorem test_readX16A8 : seen (exec (.readX16A8 0xC5) (idleA8 (bits [1, 0, 1, 1, 1, 1, 1, 0, 1, 1, 1, 0, 1, 1, 1, 1]))) =
    some { w := 78, s := 16, cs := 2, sk := 54, di := 12, ret := .value 0xBEEF, ew := false, mode := .X16, busy := false } := by
  decide +kernel
/-- V-RD11. -/
theorem test_readX8 : seen (exec (.readX8 0) (idle .X8 true (bits [1, 0, 1, 0, 0, 1, 0, 1]))) =
    some { w := 58, s := 8, cs := 2, sk := 36, di := 4, ret := .value 0x00A5, ew := true, mode := .X8, busy := false } := by
  decide +kernel
/-- V-HANG's beginning (R105): against a chip that answers 0, `ERASE` is left in its wait with `CS` = 1 after 39 writes. -/
theorem test_erase_waits : let t := stateOf (exec (.erase 0) (idle .X16 true [false]))
    t.busy = true ∧ t.cs = true ∧ t.sk = false ∧ t.di = false ∧ (writes t.trace).length = 39 ∧ t.upc = 57 := by decide +kernel

/-- V-S6, V-S7, R222, R195: what is refused, and how. -/
theorem test_refusals :
    refusedWith .busy (exec .query { State.reset with busy := true }) = true ∧
    refusedWith (.notAnInstruction (.reservedCode 12)) (step { State.reset with host := [.command 12 0 0 false] }) = true ∧
    refusedWith .notConstructed (exec .ewen { State.reset with constructed := false }) = true ∧
    refusedWith .badPins (exec .construct { State.reset with cfg := { defaultConfig with validPins := [] } }) = true ∧
    refusedWith .frameOfOtherMode (exec (.ewenX8 0) State.reset) = true ∧
    refusedWith .readFrameOfOtherWidth (exec (.readX16A8 0) State.reset) = true ∧
    refusedWith .dontCareNotZero (exec (.ewenX16 1) State.reset) = true := by decide

/-- A word of the opcode table placed by `withFetchWord` runs in the very next step. -/
theorem test_withFetchWord :
    (stateOf (step (State.reset.withFetchWord 16 0x260))).ew = true ∧ (stateOf (step (State.reset.withFetchWord 8 2))).ew = true ∧
    (stateOf (step (State.reset.withFetchWord 16 0x260))).mode = .X8 := by decide +kernel

/-! ### The hypotheses of the obligations are met -/

theorem ready_idle (m : Mode) (ew : Bool) (l : List Level) : Ready (idle m ew l) := ⟨rfl, rfl⟩

theorem ready_idleA8 (l : List Level) : Ready (idleA8 l) := ⟨rfl, rfl⟩

/-- A frame instruction whose hypotheses are closed facts is presentable. -/
theorem presentable_frame {i : Instr} {s : State} (hw : i.wf = true) (hm : i.frameMode = some s.mode)
    (hr : i.frameReadWidth = none ∨ i.frameReadWidth = some s.cfg.rd16aw) : Presentable i s := by
  refine ⟨hw, fun m h => ?_, fun w h => ?_⟩
  · rw [hm] at h; exact Option.some.inj h
  · rcases hr with hr | hr <;> rw [hr] at h
    · cases h
    · exact Option.some.inj h

/-- A machine inside the completion wait of an `ERAL` in mode `X16` (V-S3: the poll is at `UPC` = 57), with `rest` still to be answered. -/
def waitingWith (rest : List Level) : State :=
  { idle .X16 true rest with op := .eral, upc := 57, busy := true, cs := true }

theorem waiting_ready : Waiting (waitingWith [true]) := by unfold Waiting; decide +kernel
theorem waiting_notReady : Waiting (waitingWith [false]) := by unfold Waiting; decide +kernel

theorem witness_FrameDecodingLosesNoBit : decode (.frame (bits [1, 0, 0, 1, 1, 0, 0, 0, 0, 1])) = .instr (.ewenX8 1) ∧
    decode (.frame (bits [1, 1, 0, 1, 1, 1, 1, 1, 1])) = .instr (.readX16 0x3F) := by decide
theorem witness_CommandCodesDecode : 10 ≤ (10#4).toNat ∧ 10 ≤ (15#4).toNat := by decide
theorem witness_FrameTableExclusiveAndComplete :
    (0x100#9).getLsbD 8 = true ∧ (0x1FF#9).getLsbD 8 = true ∧ (0x200#10).getLsbD 9 = true ∧ (0x3FF#10).getLsbD 9 = true := by decide
theorem witness_AddressFieldKeepsOpcode : OPC_WRITE ∈ [OPC_WRITE, OPC_READ, OPC_ERASE] ∧ OPC_READ ∈ [OPC_WRITE, OPC_READ, OPC_ERASE] ∧
    OPC_ERASE ∈ [OPC_WRITE, OPC_READ, OPC_ERASE] := by simp

theorem witness_StepRunsPresentedInstruction : let s : State := { State.reset with host := [.command 2 0 0 false] }
    s.busy = false ∧ s.host = .command 2 0 0 false :: [] ∧ decode (.command 2 0 0 false) = .instr .ewen := by decide
theorem witness_ReservedCodesRefused : let s : State := { State.reset with host := [.command 10 0 0 false] }
    s.busy = false ∧ 10 ≤ (10#4).toNat ∧ s.host = .command 10 0 0 false :: [] := by decide
theorem witness_IdleEngineWaits : State.reset.busy = false ∧ State.reset.host = [] := by decide
theorem witness_BusyEngineRefusesEveryOperation : (waitingWith [true]).busy = true := by decide
theorem witness_UnconstructedEngineRefuses : let s : State := { State.reset with constructed := false }
    s.busy = false ∧ s.constructed = false ∧ Instr.ewen.op ≠ .construct := by decide
theorem witness_BadPinsRefused : let s : State := { State.reset with cfg := { defaultConfig with validPins := [0, 1, 2] } }
    s.busy = false ∧ s.cfg.pinsOk = false := by decide
theorem witness_FrameNotEmittedRefused_dontCare : Ready (idle .X16 true []) ∧ (Instr.ewenX16 1).wf = false := ⟨ready_idle .., rfl⟩
theorem witness_FrameNotEmittedRefused_mode :
    Ready (idle .X16 true []) ∧ (Instr.ewenX8 0).wf = true ∧ (Instr.ewenX8 0).frameMode = some .X8 ∧ (idle .X16 true []).mode ≠ .X8 :=
  ⟨ready_idle .., rfl, rfl, by decide⟩
theorem witness_FrameNotEmittedRefused_width :
    Ready (idle .X16 true []) ∧ (Instr.readX16A8 0).frameMode = some .X16 ∧ (idle .X16 true []).mode = .X16 ∧
      (Instr.readX16A8 0).frameReadWidth = some .eight ∧ (idle .X16 true []).cfg.rd16aw ≠ .eight :=
  ⟨ready_idle .., rfl, rfl, rfl, by decide⟩

theorem witness_ConstructResult : let s : State := { State.reset with constructed := false, mode := .X8, ew := true }
    s.busy = false ∧ s.cfg.pinsOk = true := by decide
theorem witness_SetmodeResult : Ready (idle .X8 true []) := ready_idle ..
theorem witness_QueryResult : Ready (idle .X8 true []) := ready_idle ..
theorem witness_EwenResult :
    (Instr.ewen.op = .ewen ∧ Ready (idle .X16 false []) ∧ Presentable .ewen (idle .X16 false [])) ∧
    ((Instr.ewenX16 0).op = .ewen ∧ Ready (idle .X16 false []) ∧ Presentable (.ewenX16 0) (idle .X16 false [])) ∧
    ((Instr.ewenX8 0).op = .ewen ∧ Ready (idle .X8 false []) ∧ Presentable (.ewenX8 0) (idle .X8 false [])) :=
  ⟨⟨rfl, ready_idle .., presentable_host rfl _⟩, ⟨rfl, ready_idle .., presentable_frame rfl rfl (.inl rfl)⟩,
    ⟨rfl, ready_idle .., presentable_frame rfl rfl (.inl rfl)⟩⟩
/-- The last clause of `EwenResult`: after one step of the spec's size the engine is still busy. -/
theorem witness_EwenResult_inside :
    let r := seqRun 56 (acceptStep .ewen (latched .ewen (idle .X16 false [])))
    r = .next (stateOf r) ∧ (stateOf r).busy = true ∧ (stateOf r).ew = false := ⟨goesOn_next (by decide +kernel), by decide +kernel⟩
theorem witness_EwdsResult :
    (Instr.ewds.op = .ewds ∧ Ready (idle .X16 true []) ∧ Presentable .ewds (idle .X16 true [])) ∧
    ((Instr.ewdsX16 0).op = .ewds ∧ Ready (idle .X16 true []) ∧ Presentable (.ewdsX16 0) (idle .X16 true [])) ∧
    ((Instr.ewdsX8 0).op = .ewds ∧ Ready (idle .X8 true []) ∧ Presentable (.ewdsX8 0) (idle .X8 true [])) :=
  ⟨⟨rfl, ready_idle .., presentable_host rfl _⟩, ⟨rfl, ready_idle .., presentable_frame rfl rfl (.inl rfl)⟩,
    ⟨rfl, ready_idle .., presentable_frame rfl rfl (.inl rfl)⟩⟩
/-- The last clause of `EwdsResult`: the last step inside `EWDS` in mode `X8` (62 micro-operations, R172). -/
theorem witness_EwdsResult_inside :
    let r := seqRun 62 (acceptStep .ewds (latched .ewds (idle .X8 true [])))
    r = .next (stateOf r) ∧ (stateOf r).busy = true ∧ (stateOf r).ew = true := ⟨goesOn_next (by decide +kernel), by decide +kernel⟩
theorem witness_GatedMutatingIsSilent : ∀ i ∈ [Instr.eral, .wral 1, .write 2 3, .erase 4, .eralX16 0, .wralX16 0 1, .writeX16 2 3, .eraseX16 4],
    i.op.mutating = true ∧ Ready (idle .X16 false []) ∧ Presentable i (idle .X16 false []) ∧ (idle .X16 false []).ew = false := by
  intro i hi
  simp only [List.mem_cons, List.not_mem_nil, or_false] at hi
  rcases hi with rfl | rfl | rfl | rfl | rfl | rfl | rfl | rfl <;> refine ⟨rfl, ready_idle .., ?_, rfl⟩ <;>
    first | exact presentable_host rfl _ | exact presentable_frame rfl rfl (.inl rfl)
/-- The chip's answer in `idle m ew (true :: _)` is `READY_LEVEL`. -/
theorem witness_EralResult :
    (∀ i ∈ [Instr.eral, .eralX16 0], i.op = .eral ∧ Ready (idle .X16 true [true]) ∧ Presentable i (idle .X16 true [true])) ∧
    ((Instr.eralX8 0).op = .eral ∧ Ready (idle .X8 true [true]) ∧ Presentable (.eralX8 0) (idle .X8 true [true])) ∧
    (idle .X16 true [true]).ew = true ∧ (idle .X16 true [true]).nextLevel = (idle .X16 true [true]).cfg.readyLevel ∧
    (idle .X8 true [true]).nextLevel = (idle .X8 true [true]).cfg.readyLevel := by
  refine ⟨?_, ⟨rfl, ready_idle .., presentable_frame rfl rfl (.inl rfl)⟩, rfl, rfl, rfl⟩
  intro i hi
  simp only [List.mem_cons, List.not_mem_nil, or_false] at hi
  rcases hi with rfl | rfl
  · exact ⟨rfl, ready_idle .., presentable_host rfl _⟩
  · exact ⟨rfl, ready_idle .., presentable_frame rfl rfl (.inl rfl)⟩
theorem witness_WralResult :
    (∀ i ∈ [Instr.wral 0xFFFF, .wralX16 0 0xFFFF], i.op = .wral ∧ Ready (idle .X16 true [true]) ∧ Presentable i (idle .X16 true [true])) ∧
    ((Instr.wralX8 0 0xFF).op = .wral ∧ Ready (idle .X8 true [true]) ∧ Presentable (.wralX8 0 0xFF) (idle .X8 true [true])) ∧
    (idle .X16 true [true]).ew = true ∧ (idle .X16 true [true]).nextLevel = (idle .X16 true [true]).cfg.readyLevel ∧
    (idle .X8 true [true]).nextLevel = (idle .X8 true [true]).cfg.readyLevel := by
  refine ⟨?_, ⟨rfl, ready_idle .., presentable_frame rfl rfl (.inl rfl)⟩, rfl, rfl, rfl⟩
  intro i hi
  simp only [List.mem_cons, List.not_mem_nil, or_false] at hi
  rcases hi with rfl | rfl
  · exact ⟨rfl, ready_idle .., presentable_host rfl _⟩
  · exact ⟨rfl, ready_idle .., presentable_frame rfl rfl (.inl rfl)⟩
theorem witness_WriteResult :
    (∀ i ∈ [Instr.write 0xC5 0xFFFF, .writeX16 0x3F 0xFFFF],
      i.op = .write ∧ Ready (idle .X16 true [true]) ∧ Presentable i (idle .X16 true [true])) ∧
    ((Instr.writeX8 0x7F 0xFF).op = .write ∧ Ready (idle .X8 true [true]) ∧ Presentable (.writeX8 0x7F 0xFF) (idle .X8 true [true])) ∧
    (idle .X16 true [true]).ew = true ∧ (idle .X16 true [true]).nextLevel = (idle .X16 true [true]).cfg.readyLevel ∧
    (idle .X8 true [true]).nextLevel = (idle .X8 true [true]).cfg.readyLevel := by
  refine ⟨?_, ⟨rfl, ready_idle .., presentable_frame rfl rfl (.inl rfl)⟩, rfl, rfl, rfl⟩
  intro i hi
  simp only [List.mem_cons, List.not_mem_nil, or_false] at hi
  rcases hi with rfl | rfl
  · exact ⟨rfl, ready_idle .., presentable_host rfl _⟩
  · exact ⟨rfl, ready_idle .., presentable_frame rfl rfl (.inl rfl)⟩
theorem witness_EraseResult :
    (∀ i ∈ [Instr.erase 0xFF, .eraseX16 0x3F], i.op = .erase ∧ Ready (idle .X16 true [true]) ∧ Presentable i (idle .X16 true [true])) ∧
    ((Instr.eraseX8 0x7F).op = .erase ∧ Ready (idle .X8 true [true]) ∧ Presentable (.eraseX8 0x7F) (idle .X8 true [true])) ∧
    (idle .X16 true [true]).ew = true ∧ (idle .X16 true [true]).nextLevel = (idle .X16 true [true]).cfg.readyLevel ∧
    (idle .X8 true [true]).nextLevel = (idle .X8 true [true]).cfg.readyLevel := by
  refine ⟨?_, ⟨rfl, ready_idle .., presentable_frame rfl rfl (.inl rfl)⟩, rfl, rfl, rfl⟩
  intro i hi
  simp only [List.mem_cons, List.not_mem_nil, or_false] at hi
  rcases hi with rfl | rfl
  · exact ⟨rfl, ready_idle .., presentable_host rfl _⟩
  · exact ⟨rfl, ready_idle .., presentable_frame rfl rfl (.inl rfl)⟩
theorem witness_MutatingWaitsForChip :
    Op.mutating (Instr.erase 0).op = true ∧ Ready (idle .X16 true [false]) ∧ Presentable (.erase 0) (idle .X16 true [false]) ∧
    (idle .X16 true [false]).ew = true ∧ (idle .X16 true [false]).nextLevel ≠ (idle .X16 true [false]).cfg.readyLevel :=
  ⟨rfl, ready_idle .., presentable_host rfl _, rfl, by decide⟩
theorem witness_ReadResult :
    ((Instr.read 0xC5).op = .read ∧ Ready (idle .X16 false []) ∧ Presentable (.read 0xC5) (idle .X16 false [])) ∧
    ((Instr.readX16 0x3F).op = .read ∧ Ready (idle .X16 false []) ∧ Presentable (.readX16 0x3F) (idle .X16 false [])) ∧
    ((Instr.readX16A8 0xC5).op = .read ∧ Ready (idleA8 []) ∧ Presentable (.readX16A8 0xC5) (idleA8 [])) ∧
    ((Instr.readX8 0x7F).op = .read ∧ Ready (idle .X8 true []) ∧ Presentable (.readX8 0x7F) (idle .X8 true [])) :=
  ⟨⟨rfl, ready_idle .., presentable_host rfl _⟩, ⟨rfl, ready_idle .., presentable_frame rfl rfl (.inr rfl)⟩,
    ⟨rfl, ready_idleA8 _, presentable_frame rfl rfl (.inr rfl)⟩, ⟨rfl, ready_idle .., presentable_frame rfl rfl (.inl rfl)⟩⟩

theorem witness_WaitingStep :
    (Waiting (waitingWith [true]) ∧ (waitingWith [true]).nextLevel = (waitingWith [true]).cfg.readyLevel) ∧
    (Waiting (waitingWith [false]) ∧ (waitingWith [false]).nextLevel ≠ (waitingWith [false]).cfg.readyLevel) :=
  ⟨⟨waiting_ready, rfl⟩, ⟨waiting_notReady, by decide⟩⟩
theorem witness_WaitEndsAtReadySample : let s := idle .X16 true [false, false, true]
    Instr.eral.op.mutating = true ∧ Ready s ∧ Presentable .eral s ∧ s.ew = true ∧
      s.doScript = List.replicate 2 (!s.cfg.readyLevel) ++ s.cfg.readyLevel :: [] :=
  ⟨rfl, ready_idle .., presentable_host rfl _, rfl, rfl⟩
theorem witness_WaitEndsAtReadySample_zero : let s := idle .X16 true [true]
    Instr.eral.op.mutating = true ∧ Ready s ∧ Presentable .eral s ∧ s.ew = true ∧
      s.doScript = List.replicate 0 (!s.cfg.readyLevel) ++ s.cfg.readyLevel :: [] :=
  ⟨rfl, ready_idle .., presentable_host rfl _, rfl, rfl⟩
theorem witness_HangNeverReturns : let s := idle .X16 true [false, false, false, true]
    (Instr.erase 0).op.mutating = true ∧ Ready s ∧ Presentable (.erase 0) s ∧ s.ew = true ∧
      s.doScript = List.replicate (2 + 1) (!s.cfg.readyLevel) ++ [true] :=
  ⟨rfl, ready_idle .., presentable_host rfl _, rfl, rfl⟩

/-- An instruction of each operation, with a state on which it completes; the waiting end of a mutating operation; the gate. -/
def completing : List (Instr × State) :=
  [(.construct, idle .X8 true []), (.setmode .X8, idle .X16 true []), (.query, idle .X16 true []), (.ewen, idle .X16 false []),
    (.ewds, idle .X16 true []), (.eral, idle .X16 true [true]), (.wral 7, idle .X16 true [true]), (.write 5 7, idle .X8 true [true]),
    (.erase 5, idle .X16 true [false]), (.erase 5, idle .X16 false []), (.read 5, idle .X8 true (List.replicate 8 true))]
theorem witness_WhoMayWriteWhat : ∀ p ∈ completing, exec p.1 p.2 = .next (stateOf (exec p.1 p.2)) := by
  have h : completing.all (fun p => goesOn (exec p.1 p.2)) = true := by decide +kernel
  exact fun p hp => goesOn_next (List.all_eq_true.1 h p hp)
theorem witness_TransientRegisters : ∀ p ∈ completing, exec p.1 p.2 = .next (stateOf (exec p.1 p.2)) := witness_WhoMayWriteWhat
theorem witness_SmallStepsReachTheOperation : ∀ p ∈ completing, exec p.1 p.2 = .next (stateOf (exec p.1 p.2)) := witness_WhoMayWriteWhat

theorem pinsInv_idle (m : Mode) (ew : Bool) (l : List Level) : PinsInv (idle m ew l) :=
  ⟨⟨rfl, rfl, rfl⟩, fun _ _ => ⟨rfl, rfl, rfl⟩, fun h => by cases h⟩
theorem pinsInv_waiting : PinsInv (waitingWith [true]) :=
  ⟨⟨rfl, rfl, rfl⟩, fun h _ => (by cases h), fun _ => waiting_ready⟩
/-- The machine of `State.reset` with the code of `EWEN` presented. -/
def presentingEwen : State := { State.reset with host := [.command 2 0 0 false] }
theorem pinsInv_presentingEwen : PinsInv presentingEwen :=
  ⟨⟨rfl, rfl, rfl⟩, fun _ _ => ⟨rfl, rfl, rfl⟩, fun h => by cases h⟩
theorem witness_EwRisesOnlyByEwen : let t := stateOf (step presentingEwen)
    PinsInv presentingEwen ∧ step presentingEwen = .next t ∧ presentingEwen.ew = false ∧ t.ew = true :=
  ⟨pinsInv_presentingEwen, goesOn_next (by decide +kernel), rfl, by decide +kernel⟩
theorem witness_StepKeepsIdlePinsLow :
    (PinsInv presentingEwen ∧ step presentingEwen = .next (stateOf (step presentingEwen))) ∧
    (PinsInv (waitingWith [true]) ∧ step (waitingWith [true]) = .next (stateOf (step (waitingWith [true])))) :=
  ⟨⟨pinsInv_presentingEwen, goesOn_next (by decide +kernel)⟩, ⟨pinsInv_waiting, goesOn_next (by decide +kernel)⟩⟩
theorem witness_StepKeepsDirections : PinsInv presentingEwen ∧ DirsInv presentingEwen ∧
    step presentingEwen = .next (stateOf (step presentingEwen)) :=
  ⟨pinsInv_presentingEwen, fun _ => rfl, goesOn_next (by decide +kernel)⟩
theorem witness_StepKeepsConfiguration : step presentingEwen = .next (stateOf (step presentingEwen)) := goesOn_next (by decide +kernel)
theorem witness_StepExtendsTrace : step presentingEwen = .next (stateOf (step presentingEwen)) := goesOn_next (by decide +kernel)
theorem witness_StepNeverFaults : (PinsInv presentingEwen ∧ step presentingEwen = .next (stateOf (step presentingEwen))) ∧
    PinsInv (waitingWith [true]) :=
  ⟨⟨pinsInv_presentingEwen, goesOn_next (by decide +kernel)⟩, pinsInv_waiting⟩
theorem witness_ReadDependsOnlyOnSamples :
    let s := idle .X8 true (List.replicate 8 true); let t := idle .X8 false (List.replicate 9 true)
    s.mode = t.mode ∧ State.levels (DW s.mode) s = State.levels (DW t.mode) t ∧
      exec (.read 5) s = .next (stateOf (exec (.read 5) s)) ∧ exec (.read 0x85) t = .next (stateOf (exec (.read 0x85) t)) :=
  ⟨rfl, rfl, goesOn_next (by decide +kernel), goesOn_next (by decide +kernel)⟩
theorem witness_AddressesOfOneCellAreSentAlike :
    let s := idle .X16 true [true]; let r := idle .X16 true (List.replicate 16 true)
    (0x05#8).toNat % NCELL .X16 = (0xC5#8).toNat % NCELL .X16 ∧
    exec (.write 0x05 7) s = .next (stateOf (exec (.write 0x05 7) s)) ∧ exec (.write 0xC5 7) s = .next (stateOf (exec (.write 0xC5 7) s)) ∧
    exec (.erase 0x05) s = .next (stateOf (exec (.erase 0x05) s)) ∧ exec (.erase 0xC5) s = .next (stateOf (exec (.erase 0xC5) s)) ∧
    r.cfg.rd16aw = .six ∧ exec (.read 0x05) r = .next (stateOf (exec (.read 0x05) r)) ∧
    exec (.read 0xC5) r = .next (stateOf (exec (.read 0xC5) r)) :=
  ⟨rfl, goesOn_next (by decide +kernel), goesOn_next (by decide +kernel), goesOn_next (by decide +kernel), goesOn_next (by decide +kernel),
    rfl, goesOn_next (by decide +kernel), goesOn_next (by decide +kernel)⟩

/-- From the empty trace, the events added are the trace. -/
theorem extends_empty {s t : State} (h : s.trace = []) : t.trace = s.trace ++ t.trace := by simp [h]

theorem witness_FixedFramePatterns : let s := idle .X16 true [true]
    ∀ i ∈ [Instr.ewen, .ewds, .eral], s.cs = false ∧ s.di = false ∧ s.ew = true ∧
      (stateOf (exec i s)).trace = s.trace ++ (stateOf (exec i s)).trace ∧ exec i s = .next (stateOf (exec i s)) := by
  have h : [Instr.ewen, .ewds, .eral].all (fun i => goesOn (exec i (idle .X16 true [true]))) = true := by decide +kernel
  exact fun i hi => ⟨rfl, rfl, rfl, extends_empty rfl, goesOn_next (List.all_eq_true.1 h i hi)⟩
theorem witness_OperandFramePatterns : let s := idle .X8 true [true]
    ∀ i ∈ [Instr.wral 0x1FF, .write 0x85 0x1FF, .erase 0x85], s.cs = false ∧ s.di = false ∧ s.ew = true ∧
      (stateOf (exec i s)).trace = s.trace ++ (stateOf (exec i s)).trace ∧ exec i s = .next (stateOf (exec i s)) := by
  have h : [Instr.wral 0x1FF, .write 0x85 0x1FF, .erase 0x85].all (fun i => goesOn (exec i (idle .X8 true [true]))) = true := by
    decide +kernel
  exact fun i hi => ⟨rfl, rfl, rfl, extends_empty rfl, goesOn_next (List.all_eq_true.1 h i hi)⟩
theorem witness_WireCarriesTheTableFrame : let s := idle .X8 true [true]; let i := Instr.write 0x85 0x1FF
    exec i s = .next (stateOf (exec i s)) ∧ (stateOf (exec i s)).trace = s.trace ++ (stateOf (exec i s)).trace ∧
    s.cs = false ∧ s.di = false ∧ (i.op.mutating = true → s.ew = true) ∧
    frameRow i.op s.cfg.rd16aw s.mode (addrOf i) (valueOf i) = some (.writeX8 5 0xFF) ∧
    encode (.writeX8 5 0xFF) = .frame (bits [1, 0, 1, 0, 0, 0, 0, 1, 0, 1, 1, 1, 1, 1, 1, 1, 1, 1]) :=
  ⟨goesOn_next (by decide +kernel), extends_empty rfl, rfl, rfl, fun _ => rfl, by decide, by decide⟩
theorem witness_FrameInstructionSendsItself : let s := idle .X8 true [true]
    encode (.eraseX8 0x10) = .frame (bits [1, 1, 1, 0, 0, 1, 0, 0, 0, 0]) ∧ Ready s ∧ Presentable (.eraseX8 0x10) s ∧
    s.cs = false ∧ s.di = false ∧ ((Instr.eraseX8 0x10).op.mutating = true → s.ew = true) :=
  ⟨by decide, ready_idle .., presentable_frame rfl rfl (.inl rfl), rfl, rfl, fun _ => rfl⟩
theorem witness_ClockPulsesPerOperation : let w := waitingWith [true]; let s := idle .X16 true [true]
    (Waiting w ∧ step w = .next (stateOf (step w)) ∧ (stateOf (step w)).trace = w.trace ++ (stateOf (step w)).trace) ∧
    exec (.wral 7) s = .next (stateOf (exec (.wral 7) s)) ∧
      (stateOf (exec (.wral 7) s)).trace = s.trace ++ (stateOf (exec (.wral 7) s)).trace :=
  ⟨⟨waiting_ready, goesOn_next (by decide +kernel), extends_empty rfl⟩, goesOn_next (by decide +kernel), extends_empty rfl⟩
theorem witness_TransmitterProperties : let l : Lines := ⟨true, false, false⟩
    (1 : Nat) ≤ 9 ∧ l.SK = false ∧ l.DI = false ∧ (9 : Nat) + 7 ≤ 16 := by decide
theorem witness_ReceiverProperties :
    bits [1, 0] ≠ [] ∧ rxEvents 1 (bits [1, 0]) = [.D 1, .W .SK true, .D 1] ++ .S true :: (.W .SK false :: rxEvents 1 (bits [0])) ∧
      bits [1, 0] = true :: bits [0] := by decide

/-- An engine in mode `X16` at `UPC` = `n` of an `EWEN` (56 micro-operations, R172). -/
def insideEwen (n : Nat) : State := { idle .X16 false [] with op := .ewen, upc := n, busy := true, cs := true }
/-- An engine in mode `X8` at `UPC` = `n` of a `READ` (102 micro-operations, R172; `RX(8)` starts at 61), `TCNT` not yet loaded. -/
def insideRead (n : Nat) : State := { idle .X8 false (List.replicate 8 true) with op := .read, upc := n, busy := true, cs := true }
/-- An engine at the start of a `CONSTRUCT`. -/
def insideConstruct : State := { idle .X16 false [] with op := .construct, busy := true }
/-- One state for each kind of micro-operation; the last bits of a field and of a result among them. -/
theorem witness_MicroStepsCommitNothing :
    (insideConstruct.busy = true ∧ (progOf insideConstruct)[insideConstruct.upc]? = some (.config .CS .output)) ∧
    ((insideEwen 55).busy = true ∧ (progOf (insideEwen 55))[(insideEwen 55).upc]? = some (.write .CS false)) ∧
    ((insideEwen 1).busy = true ∧ (progOf (insideEwen 1))[(insideEwen 1).upc]? = some (.drive 1 0)) ∧
    ((insideEwen 2).busy = true ∧ (progOf (insideEwen 2))[(insideEwen 2).upc]? = some (.delay 1)) ∧
    ((insideRead 61).busy = true ∧ (progOf (insideRead 61))[(insideRead 61).upc]? = some (.hold 7 1)) ∧
    ((insideRead 99).busy = true ∧ (progOf (insideRead 99))[(insideRead 99).upc]? = some (.sample 0)) ∧
    ((waitingWith [false]).busy = true ∧ (progOf (waitingWith [false]))[(waitingWith [false]).upc]? = some .poll) := by
  decide +kernel
/-- R26: `RX(8)` starts with `TCNT` at 7 and keeps it while bit 7 is in flight, then counts down. -/
theorem test_receiver_position :
    (stateOf (seqRun 1 (insideRead 61))).tcnt = 7 ∧ (stateOf (seqRun 5 (insideRead 61))).tcnt = 7 ∧
    (stateOf (seqRun 6 (insideRead 61))).tcnt = 6 ∧ (stateOf (seqRun 40 (insideRead 61))).tcnt = 0 := by decide +kernel
/-- The first and the last bit of `RX(8)`. -/
theorem witness_ReceiverPosition : let pre := (progOf (insideRead 61)).take 61
    (7 < 8 ∧ (insideRead 61).busy = true ∧ progOf (insideRead 61) = pre ++ rx 1 8 ++ [.write .CS false] ∧
      (insideRead 61).upc = pre.length + 5 * (8 - 1 - 7)) ∧
    (0 < 8 ∧ (insideRead 96).busy = true ∧ progOf (insideRead 96) = pre ++ rx 1 8 ++ [.write .CS false] ∧
      (insideRead 96).upc = pre.length + 5 * (8 - 1 - 0)) := by decide +kernel
theorem witness_CompleteStepCommits : (insideEwen 56).upc = (progOf (insideEwen 56)).length := by decide +kernel
theorem witness_SmallStepsReachTheResumedStep : (waitingWith [true]).busy = true ∧
    step (waitingWith [true]) = .next (stateOf (step (waitingWith [true]))) := ⟨rfl, goesOn_next (by decide +kernel)⟩

end Sys2Proof.Tests
end

