-- ==== Sys2Proof/Proofs/Scope.lean ====
section
/-! What every step keeps (`00_scope.md` R4, R5): the parameters, and the events already performed. Both follow from one fact, that
every step is a run of the engine on a host list whose head it may have taken. -/

namespace Sys2Proof.Machine

/-- What a run of the engine keeps, completed or stopped at a poll: the parameters (R4), the host's list (R170) and the events already
performed (R5). -/
structure RunKeeps (s t : State) : Prop where
  cfg : t.cfg = s.cfg
  host : t.host = s.host
  trace : ∃ es, t.trace = s.trace ++ es

theorem RunKeeps.refl (s : State) : RunKeeps s s := ⟨rfl, rfl, [], by simp⟩

/-- The complete step adds no event (R178), so a run keeps the same whether it completes or stops at a poll. -/
theorem runMicro_keeps (us : List MicroOp) (s : State) : RunKeeps s (runMicro us s) := by
  rcases runMicro_cases us s with ⟨u, es, hk, htr, hrun⟩ | ⟨es, hk, htr⟩
  · obtain ⟨hcfg, htrace, hhost, -⟩ := completeStep_keeps u
    rw [hrun]
    exact ⟨hcfg.trans hk.cfg, hhost.trans hk.host, es, htrace.trans htr⟩
  · exact ⟨hk.cfg, hk.host, es, htr⟩

/-- A resumed operation runs the rest of its micro-program. -/
theorem resume_next {s t : State} (h : resume s = .next t) : t = runMicro ((progOf s).drop s.upc) s := by
  unfold resume at h
  split at h
  · exact (Host.Outcome.next.inj h).symm
  · cases h

/-- Latching the operands and the accept step add no event and keep the parameters and the host's list (R173). -/
theorem started_keeps (i : Instr) (s : State) : RunKeeps s (started i s) := by
  obtain ⟨hcfg, hhost, htrace⟩ : RunKeeps (acceptStep i.op (latched i s)) (started i s) := runMicro_keeps _ _
  exact ⟨by simpa using hcfg, by simpa using hhost, by simpa using htrace⟩

/-- Every step is a run of the engine, on the host's list as it was or without its head (R170). -/
theorem step_keeps {s t : State} (h : step s = .next t) :
    ∃ rest, (rest = s.host ∨ ∃ p, s.host = p :: rest) ∧ RunKeeps { s with host := rest } t := by
  rcases step_cases h with ⟨-, hres⟩ | ⟨-, -, rfl⟩ | ⟨p, rest, i, -, hhost, -, hexec⟩
  · rw [resume_next hres]
    exact ⟨s.host, .inl rfl, runMicro_keeps _ s⟩
  · exact ⟨t.host, .inl rfl, .refl t⟩
  · obtain ⟨-, -, rfl⟩ := exec_next hexec
    exact ⟨rest, .inr ⟨p, hhost⟩, started_keeps i _⟩

/-- Settles O36: a step runs the engine on a host list that is the old one or the old one's tail. -/
theorem stepKeepsConfiguration : Obligations.StepKeepsConfiguration := by
  unfold Obligations.StepKeepsConfiguration
  intro s t h
  obtain ⟨rest, hrest, hcfg, rfl, -⟩ := step_keeps h
  exact ⟨hcfg, hrest⟩

/-- Settles O37: taking the head of the host's list leaves the trace alone, and the run that follows only appends. -/
theorem stepExtendsTrace : Obligations.StepExtendsTrace := by
  unfold Obligations.StepExtendsTrace
  intro s t h
  obtain ⟨rest, -, hrun⟩ := step_keeps h
  exact hrun.trace

end Sys2Proof.Machine
end

/-! The state and what instructions and steps keep of it (`10_state.md` R20 to R33). Each instruction that answers a next state ends in one
of two ways (`Ended`): its operation completed, or it waits for the chip. R30's table, the transient registers and the invariants of the pins
and of the directions are read off that. -/

namespace Sys2Proof.Machine

/-! ### The complete step and the pin latches, field by field (R178) -/

@[simp] theorem completeStep_dir (s : State) : (completeStep s).dir = s.dir := by
  unfold completeStep commit; cases s.op <;> rfl
@[simp] theorem completeStep_tsr (s : State) : (completeStep s).tsr = s.tsr := by
  unfold completeStep commit; cases s.op <;> rfl
@[simp] theorem completeStep_tcnt (s : State) : (completeStep s).tcnt = s.tcnt := by
  unfold completeStep commit; cases s.op <;> rfl
@[simp] theorem completeStep_rsr (s : State) : (completeStep s).rsr = s.rsr := by
  unfold completeStep commit; cases s.op <;> rfl
@[simp] theorem completeStep_op (s : State) : (completeStep s).op = s.op := by
  unfold completeStep commit; cases h : s.op <;> exact h
@[simp] theorem completeStep_aL (s : State) : (completeStep s).aL = s.aL := by
  unfold completeStep commit; cases s.op <;> rfl
@[simp] theorem completeStep_vL (s : State) : (completeStep s).vL = s.vL := by
  unfold completeStep commit; cases s.op <;> rfl
@[simp] theorem completeStep_mL (s : State) : (completeStep s).mL = s.mL := by
  unfold completeStep commit; cases s.op <;> rfl
@[simp] theorem completeStep_upc (s : State) : (completeStep s).upc = s.upc := by
  unfold completeStep commit; cases s.op <;> rfl
@[simp] theorem completeStep_cfg (s : State) : (completeStep s).cfg = s.cfg := (completeStep_keeps s).1
@[simp] theorem completeStep_busy (s : State) : (completeStep s).busy = false := rfl

/-- `EW` after the complete step: `CONSTRUCT` and `EWDS` clear it, `EWEN` sets it (R178). -/
def ewAfter (op : Op) (ew : Bool) : Bool :=
  match op with
  | .construct => false
  | .ewen => true
  | .ewds => false
  | _ => ew

theorem ewAfter_rises_iff (op : Op) : ewAfter op false = true ↔ op = .ewen := by cases op <;> simp [ewAfter]

theorem completeStep_ew (s : State) : (completeStep s).ew = ewAfter s.op s.ew := by
  unfold completeStep commit; cases s.op <;> rfl

/-- `MODE` after the complete step: `X16` for `CONSTRUCT`, the latched operand for `SETMODE` (R178). -/
def modeAfter (op : Op) (operand m : Mode) : Mode :=
  match op with
  | .construct => .X16
  | .setmode => operand
  | _ => m

theorem completeStep_mode (s : State) : (completeStep s).mode = modeAfter s.op s.mL s.mode := by
  unfold completeStep commit; cases s.op <;> rfl

theorem Waiting.busy {s : State} (h : Waiting s) : s.busy = true := h.1

theorem lines_eq_iff {t : State} {cs sk di : Level} : t.lines = ⟨cs, sk, di⟩ ↔ t.cs = cs ∧ t.sk = sk ∧ t.di = di := by
  simp [State.lines]

/-- `CONSTRUCT` alone writes the pin latches at its complete step (R178, D2). -/
theorem completeStep_lines (s : State) :
    (completeStep s).lines = if s.op = .construct then ⟨s.cfg.resetCS, s.cfg.resetSK, s.cfg.resetDI⟩ else s.lines := by
  unfold completeStep commit; cases s.op <;> rfl

/-! ### What an operation sends -/

/-- The operation in `s` shifts a frame out: it is not gated and has one (R130 to R133, R140, R160). -/
def Sends (s : State) : Prop :=
  s.op = .ewen ∨ s.op = .ewds ∨ s.op = .read ∨ (s.op.mutating = true ∧ s.ew = true)

theorem Sends.ne_construct {s : State} (h : Sends s) : s.op ≠ .construct := by
  intro ho
  simp [Sends, ho, Op.mutating] at h

/-- The micro-operations of `READ` up to its last address bit (R160, R172). -/
def readCommand (T : Nat) (w : ReadAddrWidth) (m : Mode) (a : Addr) : List MicroOp :=
  match m with
  | .X16 => [.write .CS true] ++ tx T 1 1 ++ tx T READ_OPCODE2 2 ++ tx T (readAddrField w a) (readAddrBits w)
  | .X8 => frame T .X8 (addrField .X8 OPC_READ a)

/-- The last field `READ` sends (R79, R160). -/
def readField (w : ReadAddrWidth) (m : Mode) (a : Addr) : Word :=
  match m with
  | .X16 => readAddrField w a
  | .X8 => addrField .X8 OPC_READ a

/-- The part of the micro-program up to the last frame bit (R172). -/
def commandProgram (s : State) : List MicroOp :=
  match s.op with
  | .ewen => frame s.cfg.tHold s.mode (codeField s.mode CC_EWEN)
  | .ewds => frame s.cfg.tHold s.mode (codeField s.mode CC_EWDS)
  | .read => readCommand s.cfg.tHold s.cfg.rd16aw s.mode s.aL
  | _ => mutatingProgram s

/-- The part of the micro-program after the last frame bit (R172). -/
def responseProgram (s : State) : List MicroOp :=
  match s.op with
  | .read => rx s.cfg.tHold (DW s.mode) ++ [.write .CS false]
  | .eral | .wral | .write | .erase => .write .CS false :: wait
  | _ => [.write .CS false]

/-- The events of the command (R107, R140, R160). -/
def sentEvents (s : State) : List Event :=
  match s.op with
  | .ewen => commandEvents s.cfg.tHold s.mode (codeField s.mode CC_EWEN)
  | .ewds => commandEvents s.cfg.tHold s.mode (codeField s.mode CC_EWDS)
  | .read => readCommandEvents s.cfg.tHold s.cfg.rd16aw s.mode s.aL
  | _ => mutatingCommand s.cfg.tHold s.mode s.op s.aL s.vL

/-- The last field the operation in `s` sends (R26, R80); `TSR` as it is for an operation that sends none. -/
def lastField (s : State) : Word :=
  match s.op with
  | .ewen => codeField s.mode CC_EWEN
  | .ewds => codeField s.mode CC_EWDS
  | .eral => codeField s.mode CC_ERAL
  | .wral => dataField s.mode s.vL
  | .write => dataField s.mode s.vL
  | .erase => addrField s.mode OPC_ERASE s.aL
  | .read => readField s.cfg.rd16aw s.mode s.aL
  | _ => s.tsr

/-- `s` after its command: selected, `SK` = `DI` = 0, the transmitter at the last bit of the last field (R101 (b), R107). -/
def State.afterCommand (s : State) : State :=
  { s with
    cs := true, sk := false, di := false, tsr := lastField s, tcnt := 0, upc := s.upc + (commandProgram s).length,
    trace := s.trace ++ sentEvents s }

@[simp] theorem afterCommand_cs (s : State) : s.afterCommand.cs = true := rfl
@[simp] theorem afterCommand_sk (s : State) : s.afterCommand.sk = false := rfl
@[simp] theorem afterCommand_di (s : State) : s.afterCommand.di = false := rfl
@[simp] theorem afterCommand_tsr (s : State) : s.afterCommand.tsr = lastField s := rfl
@[simp] theorem afterCommand_tcnt (s : State) : s.afterCommand.tcnt = 0 := rfl
@[simp] theorem afterCommand_upc (s : State) : s.afterCommand.upc = s.upc + (commandProgram s).length := rfl
@[simp] theorem afterCommand_trace (s : State) : s.afterCommand.trace = s.trace ++ sentEvents s := rfl
@[simp] theorem afterCommand_ew (s : State) : s.afterCommand.ew = s.ew := rfl
@[simp] theorem afterCommand_mode (s : State) : s.afterCommand.mode = s.mode := rfl
@[simp] theorem afterCommand_dir (s : State) : s.afterCommand.dir = s.dir := rfl
@[simp] theorem afterCommand_rsr (s : State) : s.afterCommand.rsr = s.rsr := rfl
@[simp] theorem afterCommand_op (s : State) : s.afterCommand.op = s.op := rfl
@[simp] theorem afterCommand_aL (s : State) : s.afterCommand.aL = s.aL := rfl
@[simp] theorem afterCommand_vL (s : State) : s.afterCommand.vL = s.vL := rfl
@[simp] theorem afterCommand_mL (s : State) : s.afterCommand.mL = s.mL := rfl
@[simp] theorem afterCommand_busy (s : State) : s.afterCommand.busy = s.busy := rfl
@[simp] theorem afterCommand_cfg (s : State) : s.afterCommand.cfg = s.cfg := rfl
@[simp] theorem afterCommand_constructed (s : State) : s.afterCommand.constructed = s.constructed := rfl
@[simp] theorem afterCommand_ret (s : State) : s.afterCommand.ret = s.ret := rfl
@[simp] theorem afterCommand_doScript (s : State) : s.afterCommand.doScript = s.doScript := rfl
@[simp] theorem afterCommand_drawn (s : State) : s.afterCommand.drawn = s.drawn := rfl
@[simp] theorem afterCommand_host (s : State) : s.afterCommand.host = s.host := rfl

theorem progRead_eq (T : Nat) (w : ReadAddrWidth) (m : Mode) (a : Addr) :
    progRead T w m a = readCommand T w m a ++ (rx T (DW m) ++ [.write .CS false]) := by
  cases m <;> simp [progRead, readCommand, DW]

theorem runMicro_readCommand (T : Nat) (w : ReadAddrWidth) (m : Mode) (a : Addr) (rest : List MicroOp) (s : State) :
    runMicro (readCommand T w m a ++ rest) s =
      runMicro rest
        { s with
          cs := true, sk := false, di := false, tsr := readField w m a, tcnt := 0,
          upc := s.upc + (readCommand T w m a).length, trace := s.trace ++ readCommandEvents T w m a } := by
  cases m with
  | X8 => simp [readCommand, readField, readCommandEvents, runMicro_frame]
  | X16 =>
    simp only [readCommand, List.append_assoc, List.cons_append, List.nil_append, runMicro_write,
      runMicro_tx_pos _ _ (show 0 < 1 by decide), runMicro_tx_pos _ _ (show 0 < 2 by decide),
      runMicro_tx_pos _ _ (readAddrBits_pos w)]
    refine congrArg (runMicro rest) ?_
    simp [readField, readCommandEvents, READ_OPCODE2, State.emit, State.advance, State.setPin]
    omega

/-- An operation that sends is its command and what follows it (R172). -/
theorem progOf_sends {s : State} (h : Sends s) : progOf s = commandProgram s ++ responseProgram s := by
  rcases h with ho | ho | ho | ⟨hm, he⟩
  · simp [progOf, commandProgram, responseProgram, ho, progEwen]
  · simp [progOf, commandProgram, responseProgram, ho, progEwds]
  · simp [progOf, commandProgram, responseProgram, ho, progRead_eq]
  · rw [progOf_mutating hm he]
    cases ho : s.op <;> simp [ho, Op.mutating] at hm <;> simp [commandProgram, responseProgram, ho]

/-- The other operations but `CONSTRUCT` have the empty micro-program (R121, R132, R133). -/
theorem progOf_silent {s : State} (h : ¬ Sends s) (hc : s.op ≠ .construct) : progOf s = [] := by
  cases hm : s.op.mutating with
  | true => exact progOf_gated hm (by simpa using fun he => h (.inr (.inr (.inr ⟨hm, he⟩))))
  | false =>
    have ho : s.op = .setmode ∨ s.op = .query := by cases ho : s.op <;> simp_all [Sends, Op.mutating]
    rcases ho with ho | ho <;> simp [progOf, ho, progSetmode, progQuery]

/-- What a command does: its events, and the lines and the transmitter as `State.afterCommand` says. -/
theorem runMicro_command {s : State} (h : Sends s) (rest : List MicroOp) :
    runMicro (commandProgram s ++ rest) s = runMicro rest s.afterCommand := by
  cases ho : s.op
  case construct | setmode | query => simp [Sends, ho, Op.mutating] at h
  case ewen | ewds | eral | erase =>
    simp [commandProgram, State.afterCommand, lastField, sentEvents, ho, mutatingProgram, mutatingCommand, runMicro_frame]
  case wral | write =>
    simp only [commandProgram, State.afterCommand, lastField, sentEvents, ho, mutatingProgram, mutatingCommand, runMicro_frame,
      runMicro_tx_pos _ _ (DW_pos s.mode), List.append_assoc]
    refine congrArg (runMicro rest) ?_
    simp [Nat.add_assoc]
  case read => simp only [commandProgram, State.afterCommand, lastField, sentEvents, ho, runMicro_readCommand]

/-- `RX(n)` for any `n ≥ 1` (R102, R103). -/
theorem runMicro_rx_pos (T : Nat) {n : Nat} (h : 0 < n) (rest : List MicroOp) (s : State) :
    runMicro (rx T n ++ rest) s =
      runMicro rest
        { State.takeLevels n s with
          rsr := storeSamples s.rsr n (State.levels n s), tcnt := 0, sk := false,
          trace := s.trace ++ rxEvents T (State.levels n s), upc := s.upc + 5 * n } := by
  obtain ⟨k, rfl⟩ : ∃ k, n = k + 1 := ⟨n - 1, by omega⟩
  exact runMicro_rx T k rest s

/-! ### How an operation ends -/

/-- What the operation accepted in `a` has done once it is about to complete, or to poll again, in `u`. -/
structure Performed (a u : State) : Prop where
  keeps : MicroKeeps a u
  dir : u.dir = if a.op = .construct then { CS := .output, SK := .output, DI := .output, DO := .input } else a.dir
  rsr : u.rsr = if a.op = .read then ofSamples (State.levels (DW a.mode) a) else a.rsr
  silent : ¬ Sends a → u.lines = a.lines ∧ u.tsr = a.tsr ∧ u.tcnt = a.tcnt
  sent : Sends a → u.sk = false ∧ u.di = false ∧ u.tsr = lastField a ∧ u.tcnt = 0

/-- What running the micro-program of an accepted operation comes to: `t` is the complete step of what it performed, its command and
response over; or it waits for the chip. -/
inductive Ended (a t : State) : Prop where
  | completed (u : State) (hu : Performed a u) (ht : t = completeStep u) (hupc : u.upc = (progOf a).length)
      (hcs : Sends a → u.cs = false)
  | waits (ht : Performed a t) (hm : a.op.mutating = true) (hw : Waiting t)

/-- `CONSTRUCT` sets the four directions and completes (R120). -/
theorem ended_construct {a : State} (ho : a.op = .construct) (h0 : a.upc = 0) : Ended a (runMicro (progOf a) a) := by
  have hs : ¬ Sends a := fun hs => hs.ne_construct ho
  have hp : progOf a = progConstruct := by simp [progOf, ho]
  rw [hp]
  simp only [progConstruct, runMicro_config, runMicro_nil]
  refine .completed _ ⟨?_, ?_, ?_, ?_, ?_⟩ rfl ?_ ?_
  · constructor <;> simp
  · simp [ho, State.setDir, State.emit, State.advance]
  · simp [ho]
  · simp [State.lines]
  · exact fun h => absurd h hs
  · simp [hp, h0, progConstruct]
  · exact fun h => absurd h hs

/-- An empty micro-program completes at once (R121, R132, R133). -/
theorem ended_silent {a : State} (hs : ¬ Sends a) (hc : a.op ≠ .construct) (h0 : a.upc = 0) :
    Ended a (runMicro (progOf a) a) := by
  have hr : a.op ≠ .read := fun h => hs (.inr (.inr (.inl h)))
  have hp := progOf_silent hs hc
  rw [hp]
  refine .completed a ⟨.rfl' a, by simp [hc], by simp [hr], fun _ => ⟨rfl, rfl, rfl⟩, fun h => absurd h hs⟩ rfl ?_
    fun h => absurd h hs
  simp [hp, h0]

/-- What a run that follows a command has to keep (R26, R101 (b)). -/
theorem Performed.of_afterCommand {a u : State} (h : Sends a) (hk : MicroKeeps a.afterCommand u) (hd : u.dir = a.dir)
    (hsk : u.sk = false) (hdi : u.di = false) (htsr : u.tsr = lastField a) (htcnt : u.tcnt = 0)
    (hrsr : u.rsr = if a.op = .read then ofSamples (State.levels (DW a.mode) a) else a.rsr) : Performed a u := by
  have hka : MicroKeeps a a.afterCommand := by constructor <;> rfl
  exact ⟨hka.trans hk, by simp [h.ne_construct, hd], hrsr, fun hs => absurd h hs, fun _ => ⟨hsk, hdi, htsr, htcnt⟩⟩

/-- `EWEN` and `EWDS`: the command, then `W(CS, 0)` (R130, R131). -/
theorem ended_latch {a : State} (ho : a.op = .ewen ∨ a.op = .ewds) (h0 : a.upc = 0) : Ended a (runMicro (progOf a) a) := by
  have hs : Sends a := by rcases ho with ho | ho <;> simp [Sends, ho]
  have hr : responseProgram a = [.write .CS false] := by rcases ho with ho | ho <;> simp [responseProgram, ho]
  have hn : a.op ≠ .read := by rcases ho with ho | ho <;> simp [ho]
  have hp : progOf a = commandProgram a ++ [.write .CS false] := hr ▸ progOf_sends hs
  rw [hp, runMicro_command hs, runMicro_write, runMicro_nil]
  refine .completed _ (.of_afterCommand hs (by constructor <;> simp) ?_ ?_ ?_ ?_ ?_ ?_) rfl ?_ ?_ <;> simp [hn, hp, h0]

/-- `READ`: the command, the samples into `RSR`, then `W(CS, 0)` (R160). -/
theorem ended_read {a : State} (ho : a.op = .read) (h0 : a.upc = 0) (hrsr : a.rsr = 0) : Ended a (runMicro (progOf a) a) := by
  have hs : Sends a := .inr (.inr (.inl ho))
  have hp : progOf a = commandProgram a ++ (rx a.cfg.tHold (DW a.mode) ++ [.write .CS false]) := by
    simp [progOf_sends hs, responseProgram, ho]
  have hl : State.levels (DW a.mode) a.afterCommand = State.levels (DW a.mode) a :=
    (takeLevels_congr _ (afterCommand_doScript a) (afterCommand_drawn a)).1
  have hn : (State.levels (DW a.mode) a).length ≤ 16 := by rw [levels_length]; cases a.mode <;> decide
  have hz : storeSamples 0 (DW a.mode) (State.levels (DW a.mode) a) = ofSamples (State.levels (DW a.mode) a) := by
    simpa using storeSamples_zero _ hn
  rw [hp, runMicro_command hs, runMicro_rx_pos _ (DW_pos _), runMicro_write, runMicro_nil, takeLevels_eq, hl]
  refine .completed _ (.of_afterCommand hs (by constructor <;> simp) ?_ ?_ ?_ ?_ ?_ ?_) rfl ?_ ?_
  case refine_6 => simpa [ho, hrsr] using hz
  all_goals simp [hp, h0, Nat.add_assoc]

/-- A mutating operation past the gate: the command, then a completion wait that ends or goes on (R140, R175). -/
theorem ended_mutating {a : State} (hm : a.op.mutating = true) (he : a.ew = true) (hb : a.busy = true) (hc : a.constructed = true)
    (h0 : a.upc = 0) : Ended a (runMicro (progOf a) a) := by
  have hs : Sends a := .inr (.inr (.inr ⟨hm, he⟩))
  have hn : a.op ≠ .read := by intro ho; simp [ho, Op.mutating] at hm
  have hp : progOf a = commandProgram a ++ (.write .CS false :: wait) := by
    rw [progOf_sends hs]
    cases ho : a.op <;> simp [ho, Op.mutating] at hm <;> simp [responseProgram, ho]
  have hr : runMicro (progOf a) a = runMicro (.write .CS false :: wait) a.afterCommand := by rw [hp, runMicro_command hs]
  by_cases hl : a.afterCommand.nextLevel = a.afterCommand.cfg.readyLevel
  · rw [hr, runMicro_wait_ready hl]
    refine .completed _ (.of_afterCommand hs (by constructor <;> simp) ?_ ?_ ?_ ?_ ?_ ?_) rfl ?_ ?_ <;> simp [hn, hp, h0, wait]
  · rw [hr, runMicro_wait_notReady hl]
    have hu : Performed a { a.afterCommand.takeLevel with
        cs := true, upc := a.afterCommand.upc + 2,
        trace := a.afterCommand.trace ++ [.W .CS false, .W .CS true, .S a.afterCommand.nextLevel] } := by
      refine .of_afterCommand hs (by constructor <;> simp) ?_ ?_ ?_ ?_ ?_ ?_ <;> simp [hn]
    refine .waits hu hm ⟨?_, ?_, ?_, ?_, ?_, ?_, ?_, ?_⟩
    case refine_4 => rw [hu.keeps.progOf, hp]; simp [h0, wait]
    case refine_5 => rw [hu.keeps.progOf, hp]; simp [h0, wait]
    all_goals simp [hb, hm, hc]

/-- How an accepted operation ends, by what its micro-program sends: nothing but the configuration of the pins, nothing at all
(`SETMODE`, `QUERY`, the gate), a frame, a frame and its response, a frame and its completion wait. -/
theorem ended_of_accepted {a : State} (hb : a.busy = true) (hc : a.op ≠ .construct → a.constructed = true) (h0 : a.upc = 0)
    (hrsr : a.op = .read → a.rsr = 0) : Ended a (runMicro (progOf a) a) := by
  by_cases hs : Sends a
  · have ho : a.op ≠ .construct := hs.ne_construct
    rcases hs with h | h | h | ⟨hm, he⟩
    · exact ended_latch (.inl h) h0
    · exact ended_latch (.inr h) h0
    · exact ended_read h h0 (hrsr h)
    · exact ended_mutating hm he hb (hc ho) h0
  · by_cases ho : a.op = .construct
    · exact ended_construct ho h0
    · exact ended_silent hs ho h0

/-- How an instruction that answers a next state ends. -/
theorem exec_ended {i : Instr} {s t : State} (h : exec i s = .next t) : Ended (acceptStep i.op (latched i s)) t := by
  obtain ⟨hr, -, rfl⟩ := exec_next h
  obtain ⟨-, hc⟩ := (refusalOf_eq_none_iff _ _).1 hr
  exact ended_of_accepted rfl (fun ho => by simpa [show i.op ≠ .construct from ho] using hc) rfl
    (fun ho => by simp [clearForRead, show i.op = .read from ho])

/-- The fields no complete step writes (R178), so that they are as the micro-operations left them. -/
structure SameRegisters (u t : State) : Prop where
  dir : t.dir = u.dir
  aL : t.aL = u.aL
  vL : t.vL = u.vL
  mL : t.mL = u.mL
  tsr : t.tsr = u.tsr
  tcnt : t.tcnt = u.tcnt
  rsr : t.rsr = u.rsr
  cfg : t.cfg = u.cfg

theorem latched_aL (i : Instr) (s : State) :
    (latched i s).aL = match i.op with
      | .write => addrOf i
      | .erase => addrOf i
      | .read => addrOf i
      | _ => s.aL := by cases i <;> rfl

theorem latched_vL (i : Instr) (s : State) :
    (latched i s).vL = match i.op with
      | .wral => valueOf i
      | .write => valueOf i
      | _ => s.vL := by cases i <;> rfl

theorem latched_mL (i : Instr) (s : State) : (latched i s).mL = modeOf i s.mL := by cases i <;> rfl

section
variable {a t : State}

theorem Ended.op (h : Ended a t) : t.op = a.op := by
  cases h with
  | completed u hu ht => simp [ht, hu.keeps.op]
  | waits ht => exact ht.keeps.op

theorem Ended.ew (h : Ended a t) : t.ew = ewAfter a.op a.ew := by
  cases h with
  | completed u hu ht => rw [ht, completeStep_ew, hu.keeps.op, hu.keeps.ew]
  | waits ht hm =>
    rw [ht.keeps.ew]
    cases ho : a.op <;> simp [ho, Op.mutating] at hm <;> rfl

theorem Ended.mode (h : Ended a t) : t.mode = modeAfter a.op a.mL a.mode := by
  cases h with
  | completed u hu ht => rw [ht, completeStep_mode, hu.keeps.op, hu.keeps.mode, hu.keeps.mL]
  | waits ht hm =>
    rw [ht.keeps.mode]
    cases ho : a.op <;> simp [ho, Op.mutating] at hm <;> rfl

theorem Ended.registers (h : Ended a t) : ∃ u, Performed a u ∧ SameRegisters u t := by
  cases h with
  | completed u hu ht => exact ⟨u, hu, by constructor <;> simp [ht]⟩
  | waits ht => exact ⟨t, ht, rfl, rfl, rfl, rfl, rfl, rfl, rfl, rfl⟩

theorem Ended.upc (h : Ended a t) (hb : t.busy = false) : t.upc = (progOf a).length := by
  cases h with
  | completed u hu ht hupc => simp [ht, hupc]
  | waits ht hm hw => simp [hw.busy] at hb

theorem Ended.waiting (h : Ended a t) (hb : t.busy = true) : Waiting t := by
  cases h with
  | completed u hu ht => simp [ht] at hb
  | waits ht hm hw => exact hw

/-- The pin latches after `CONSTRUCT` (D2). -/
theorem Ended.lines_construct (h : Ended a t) (ho : a.op = .construct) :
    t.lines = ⟨a.cfg.resetCS, a.cfg.resetSK, a.cfg.resetDI⟩ := by
  cases h with
  | completed u hu ht => rw [ht, completeStep_lines, if_pos (hu.keeps.op.trans ho), hu.keeps.cfg]
  | waits ht hm => simp [ho, Op.mutating] at hm

/-- An operation that sends nothing leaves the pin latches as they were. -/
theorem Ended.lines_silent (h : Ended a t) (ho : a.op ≠ .construct) (hs : ¬ Sends a) : t.lines = a.lines := by
  cases h with
  | completed u hu ht =>
    rw [ht, completeStep_lines, if_neg (by rwa [hu.keeps.op])]
    exact (hu.silent hs).1
  | waits ht => exact (ht.silent hs).1

/-- An operation that sends a frame ends with the three lines low (R101 (b), R103 (b), R104). -/
theorem Ended.lines_sent (h : Ended a t) (hs : Sends a) (hb : t.busy = false) : t.lines = ⟨false, false, false⟩ := by
  cases h with
  | completed u hu ht hupc hcs =>
    have ho : u.op ≠ .construct := by rw [hu.keeps.op]; exact hs.ne_construct
    obtain ⟨hsk, hdi, -⟩ := hu.sent hs
    rw [ht, completeStep_lines, if_neg ho, State.lines, hcs hs, hsk, hdi]
  | waits ht hm hw => simp [hw.busy] at hb

end

/-! ### What an instruction leaves -/

theorem sends_accepted (i : Instr) (s : State) :
    Sends (acceptStep i.op (latched i s)) ↔
      i.op = .ewen ∨ i.op = .ewds ∨ i.op = .read ∨ (i.op.mutating = true ∧ s.ew = true) := by
  simp [Sends]

theorem not_sends_accepted {i : Instr} {s : State}
    (h : i.op = .construct ∨ i.op = .setmode ∨ i.op = .query ∨ (i.op.mutating = true ∧ s.ew = false)) :
    ¬ Sends (acceptStep i.op (latched i s)) := by
  rw [sends_accepted]
  rintro (hs | hs | hs | ⟨hm, he⟩)
  case inr.inr.inr =>
    have ho : i.op = .construct ∨ i.op = .setmode ∨ i.op = .query := by simpa [he] using h
    rcases ho with ho | ho | ho <;> simp [ho, Op.mutating] at hm
  all_goals simp [hs, Op.mutating] at h

/-- The last field an accepted instruction sends, in terms of its own operands (R80). -/
theorem lastField_accepted (i : Instr) (s : State) :
    lastField (acceptStep i.op (latched i s)) = match i.op with
      | .ewen => codeField s.mode CC_EWEN
      | .ewds => codeField s.mode CC_EWDS
      | .eral => codeField s.mode CC_ERAL
      | .wral => dataField s.mode (valueOf i)
      | .write => dataField s.mode (valueOf i)
      | .erase => addrField s.mode OPC_ERASE (addrOf i)
      | .read => readField s.cfg.rd16aw s.mode (addrOf i)
      | _ => s.tsr := by
  cases i <;> rfl

/-- R21, R134: only `CONSTRUCT`, `EWEN` and `EWDS` write `EW`. -/
theorem exec_ew {i : Instr} {s t : State} (h : exec i s = .next t) : t.ew = ewAfter i.op s.ew := by
  simpa using (exec_ended h).ew

/-- R24: only `CONSTRUCT` sets directions. -/
theorem exec_dir {i : Instr} {s t : State} (h : exec i s = .next t) :
    t.dir = if i.op = .construct then { CS := .output, SK := .output, DI := .output, DO := .input } else s.dir := by
  obtain ⟨u, hu, hk⟩ := (exec_ended h).registers
  simpa [hk.dir] using hu.dir

/-- R102, R161, R173: only `READ` writes `RSR`, from the samples. -/
theorem exec_rsr {i : Instr} {s t : State} (h : exec i s = .next t) :
    t.rsr = if i.op = .read then ofSamples (State.levels (DW s.mode) s) else s.rsr := by
  obtain ⟨u, hu, hk⟩ := (exec_ended h).registers
  have hl : State.levels (DW s.mode) (acceptStep i.op (latched i s)) = State.levels (DW s.mode) s :=
    (takeLevels_congr _ (by simp) (by simp)).1
  rw [hk.rsr, hu.rsr]
  simp only [acceptStep_op, acceptStep_mode, latched_mode, acceptStep_rsr, latched_rsr, hl]
  split
  · rfl
  · next ho => simp [clearForRead, ho]

theorem exec_lines_construct {i : Instr} {s t : State} (h : exec i s = .next t) (ho : i.op = .construct) :
    t.lines = ⟨s.cfg.resetCS, s.cfg.resetSK, s.cfg.resetDI⟩ := by
  simpa using (exec_ended h).lines_construct ho

theorem exec_lines_silent {i : Instr} {s t : State} (h : exec i s = .next t)
    (ho : i.op = .setmode ∨ i.op = .query ∨ (i.op.mutating = true ∧ s.ew = false)) : t.lines = s.lines := by
  have hc : i.op ≠ .construct := by intro hc; simp [hc, Op.mutating] at ho
  simpa [State.lines] using (exec_ended h).lines_silent hc (not_sends_accepted (.inr ho))

theorem exec_lines_sent {i : Instr} {s t : State} (h : exec i s = .next t)
    (ho : i.op = .ewen ∨ i.op = .ewds ∨ i.op = .read ∨ (i.op.mutating = true ∧ s.ew = true)) (hb : t.busy = false) :
    t.lines = ⟨false, false, false⟩ :=
  (exec_ended h).lines_sent ((sends_accepted i s).2 ho) hb

/-- Settles O31: `EW`, `MODE`, the directions, the pin latches and `RSR`, each by its own lemma about an instruction's end. -/
theorem whoMayWriteWhat : Obligations.WhoMayWriteWhat := by
  unfold Obligations.WhoMayWriteWhat
  intro i s t h
  have hmode : t.mode = modeAfter i.op (modeOf i s.mL) s.mode := by simpa [latched_mL] using (exec_ended h).mode
  obtain ⟨u, hu, hk⟩ := (exec_ended h).registers
  refine ⟨exec_ew h, ?_, ?_, ?_, ?_, ?_, ?_, ?_, ?_⟩
  · cases i <;> exact hmode
  · rw [exec_dir h]
    cases i <;> rfl
  · exact fun ho => lines_eq_iff.1 (exec_lines_construct h ho)
  · exact fun ho => lines_eq_iff.1 (exec_lines_silent h ho)
  · exact fun ho hb => lines_eq_iff.1 (exec_lines_sent h ho hb)
  · intro ho
    obtain ⟨-, htsr, htcnt⟩ := hu.silent (not_sends_accepted ho)
    exact ⟨by simpa [hk.tsr] using htsr, by simpa [hk.tcnt] using htcnt⟩
  · intro ho
    rw [exec_rsr h, if_neg ho]
  · intro ho
    rw [exec_rsr h, if_pos ho]

/-- Settles O32: the operand latches are written at acceptance, `TSR` and `TCNT` by the command. -/
theorem transientRegisters : Obligations.TransientRegisters := by
  unfold Obligations.TransientRegisters
  intro i s t h
  have ha := exec_ended h
  obtain ⟨u, hu, hk⟩ := ha.registers
  refine ⟨ha.op, ?_, ?_, ?_, ha.upc, ?_⟩
  · rw [hk.aL, hu.keeps.aL]
    exact latched_aL i s
  · rw [hk.vL, hu.keeps.vL]
    exact latched_vL i s
  · rw [hk.mL, hu.keeps.mL]
    exact latched_mL i s
  · intro hs
    obtain ⟨-, -, htsr, htcnt⟩ := hu.sent ((sends_accepted i s).2 hs)
    refine ⟨hk.tcnt.trans htcnt, ?_⟩
    rw [hk.tsr, htsr]
    exact lastField_accepted i s

/-! ### Steps -/

/-- A poll that sees `READY_LEVEL` ends the wait and the operation (R104, R175, R178; log 4). -/
theorem step_waiting_ready {s : State} (h : Waiting s) (hl : s.nextLevel = s.cfg.readyLevel) :
    step s = .next
      { s.takeLevel with
        cs := false, busy := false, ret := .nothing, upc := s.upc + 2,
        trace := s.trace ++ [.S s.cfg.readyLevel, .W .CS false] } := by
  obtain ⟨-, hm, -⟩ := id h
  rw [step_waiting h, runMicro_poll_ready hl, runMicro_write, runMicro_nil, completeStep_mutating (by simpa using hm), hl]
  simp [State.emit, State.advance, State.setPin]

/-- A poll that does not see `READY_LEVEL` is performed again by the next step (R175, log 4). -/
theorem step_waiting_notReady {s : State} (h : Waiting s) (hl : s.nextLevel ≠ s.cfg.readyLevel) :
    step s = .next (s.takeLevel.emit (.S s.nextLevel)) := by
  rw [step_waiting h, runMicro_poll_notReady hl]

/-- After such a poll the engine stands where it stood. -/
theorem waiting_poll_notReady {s : State} (h : Waiting s) : Waiting (s.takeLevel.emit (.S s.nextLevel)) := by
  have hk : MicroKeeps s (s.takeLevel.emit (.S s.nextLevel)) := by constructor <;> simp
  unfold Waiting
  rw [hk.progOf]
  simpa [Waiting] using h

/-- What a step of a waiting engine keeps, and where it leaves the lines (R104). -/
theorem step_of_waiting {s t : State} (h : Waiting s) (hs : step s = .next t) :
    t.ew = s.ew ∧ t.dir = s.dir ∧ t.cfg = s.cfg ∧ ((t.busy = false ∧ t.lines = ⟨false, false, false⟩) ∨ Waiting t) := by
  by_cases hl : s.nextLevel = s.cfg.readyLevel
  · obtain ⟨-, -, -, -, -, -, hsk, hdi⟩ := id h
    rw [step_waiting_ready h hl] at hs
    obtain rfl := Host.Outcome.next.inj hs
    simp [State.lines, hsk, hdi]
  · rw [step_waiting_notReady h hl] at hs
    obtain rfl := Host.Outcome.next.inj hs
    exact ⟨by simp, by simp, by simp, .inr (waiting_poll_notReady h)⟩

/-- What a step can be from a state that meets `PinsInv`: one more poll, a wait for the host, or one instruction (R170, log 4). -/
theorem PinsInv.step_cases {s t : State} (hi : PinsInv s) (h : step s = .next t) :
    Waiting s ∨ t = s ∨
      ∃ p rest i, s.busy = false ∧ s.host = p :: rest ∧ decode p = .instr i ∧ exec i { s with host := rest } = .next t := by
  obtain ⟨-, -, hw⟩ := hi
  rcases Machine.step_cases h with ⟨hb, -⟩ | ⟨-, -, ht⟩ | hx
  · exact .inl (hw hb)
  · exact .inr (.inl ht)
  · exact .inr (.inr hx)

theorem exec_keeps_pinsInv {i : Instr} {s t : State} (hi : PinsInv s) (h : exec i s = .next t) : PinsInv t := by
  obtain ⟨hlow, hpins, -⟩ := hi
  obtain ⟨hcs, hsk, hdi⟩ := id hlow
  obtain ⟨hr, -, -⟩ := exec_next h
  obtain ⟨hidle, hc⟩ := (refusalOf_eq_none_iff _ _).1 hr
  have ha := exec_ended h
  obtain ⟨u, hu, hk⟩ := ha.registers
  have hcfg : t.cfg = s.cfg := by simpa [hk.cfg] using hu.keeps.cfg
  refine ⟨by simpa [ResetLevelsLow, hcfg] using hlow, fun hb _ => lines_eq_iff.1 ?_, ha.waiting⟩
  by_cases hs : Sends (acceptStep i.op (latched i s))
  · exact ha.lines_sent hs hb
  · by_cases ho : i.op = .construct
    · rw [exec_lines_construct h ho, hcs, hsk, hdi]
    · rw [ha.lines_silent ho hs]
      exact lines_eq_iff.2 (by simpa using hpins hidle (by simpa [ho] using hc))

/-- Settles O34: a poll ends with the lines low or waits on, and every instruction keeps the invariant. -/
theorem stepKeepsIdlePinsLow : Obligations.StepKeepsIdlePinsLow := by
  unfold Obligations.StepKeepsIdlePinsLow
  intro s t hi h
  rcases hi.step_cases h with hw | rfl | ⟨p, rest, i, -, -, -, hx⟩
  · obtain ⟨-, -, hcfg, hend⟩ := step_of_waiting hw h
    obtain ⟨hlow, -⟩ := hi
    have hlow' : ResetLevelsLow t := by simpa [ResetLevelsLow, hcfg] using hlow
    rcases hend with ⟨hb, hlines⟩ | hwt
    · exact ⟨hlow', fun _ _ => lines_eq_iff.1 hlines, fun hb' => by simp [hb] at hb'⟩
    · exact ⟨hlow', fun hb => by simp [hwt.busy] at hb, fun _ => hwt⟩
  · exact hi
  · exact exec_keeps_pinsInv (s := { s with host := rest }) hi hx

/-- Settles O33: a poll keeps `EW`, and of the instructions only `EWEN` sets it. -/
theorem ewRisesOnlyByEwen : Obligations.EwRisesOnlyByEwen := by
  unfold Obligations.EwRisesOnlyByEwen
  intro s t hi h h0 h1
  rcases hi.step_cases h with hw | rfl | ⟨p, rest, i, hb, hhost, hd, hx⟩
  · obtain ⟨hew, -⟩ := step_of_waiting hw h
    simp [hew, h0] at h1
  · simp [h0] at h1
  · have hew : t.ew = ewAfter i.op s.ew := exec_ew (s := { s with host := rest }) hx
    rw [hew, h0] at h1
    exact ⟨p, rest, i, hb, hhost, hd, (ewAfter_rises_iff _).1 h1⟩

theorem exec_keeps_dirsInv {i : Instr} {s t : State} (hi : DirsInv s) (h : exec i s = .next t) : DirsInv t := by
  obtain ⟨hr, -, -⟩ := exec_next h
  obtain ⟨-, hc⟩ := (refusalOf_eq_none_iff _ _).1 hr
  intro _
  rw [exec_dir h]
  split
  · rfl
  · next ho => exact hi (by simpa [ho] using hc)

/-- Settles O35: a poll keeps the directions, and of the instructions only `CONSTRUCT` sets them, to the same four. -/
theorem stepKeepsDirections : Obligations.StepKeepsDirections := by
  unfold Obligations.StepKeepsDirections
  intro s t hp hi h
  rcases hp.step_cases h with hw | rfl | ⟨p, rest, i, -, -, -, hx⟩
  · obtain ⟨-, hdir, -⟩ := step_of_waiting hw h
    obtain ⟨-, -, hc, -⟩ := hw
    exact fun _ => hdir.trans (hi hc)
  · exact hi
  · exact exec_keeps_dirsInv (s := { s with host := rest }) hi hx

theorem pinsInv_reset : PinsInv State.reset :=
  ⟨⟨rfl, rfl, rfl⟩, fun _ _ => ⟨rfl, rfl, rfl⟩, fun h => absurd h Bool.false_ne_true⟩

theorem dirsInv_reset : DirsInv State.reset := fun _ => rfl

/-- Settles O14, by evaluating the reset state. -/
theorem resetState : Obligations.ResetState := by
  unfold Obligations.ResetState
  exact ⟨rfl, rfl, rfl, rfl, rfl, rfl, rfl⟩

/-- Settles O15: the reset state is idle, so nothing is asked of its wait. -/
theorem resetMeetsInvariants : Obligations.ResetMeetsInvariants := ⟨pinsInv_reset, dirsInv_reset⟩

/-! ### The receiver -/

/-- The state after the micro-operations of a list, one micro step each (R174). -/
def performAll : List MicroOp → State → State
  | [], s => s
  | u :: us, s => performAll us (microStep u s)

theorem microStep_upc_of_ne_poll {u : MicroOp} (h : u ≠ .poll) (s : State) : (microStep u s).upc = s.upc + 1 :=
  (microStep_upc u s).resolve_right fun hp => h hp.1

/-- Steps of the spec's own size perform the micro-operations that stand at `UPC`, one each (R174). -/
theorem seqRun_performAll {us rest : List MicroOp} {s : State} (hus : .poll ∉ us) (hd : (progOf s).drop s.upc = us ++ rest) :
    seqRun us.length s = .next (performAll us s) := by
  induction us generalizing s with
  | nil => rfl
  | cons u us ih =>
    have hget : (progOf s)[s.upc]? = some u := by
      rw [← List.head?_drop, hd]
      rfl
    obtain ⟨hu, hus'⟩ : u ≠ .poll ∧ .poll ∉ us := by simpa [eq_comm] using hus
    have hup := microStep_upc_of_ne_poll hu s
    have htail : (progOf (microStep u s)).drop (microStep u s).upc = us ++ rest := by
      rw [(microStep_keeps u s).progOf, hup, ← List.tail_drop, hd]
      rfl
    simp only [List.length_cons, seqRun, seqStep, hget, performAll]
    exact ih hus' htail

/-- The five micro-operations of bit `i` of `RX` (R102, R172). -/
def rxBit (T i : Nat) : List MicroOp := [.hold i T, .write .SK true, .delay T, .sample i, .write .SK false]

/-- Before bit `i` of `RX(n)` stand the `n - 1 - i` bits above it, five micro-operations each. -/
theorem drop_rx (T : Nat) {n i : Nat} (h : i < n) : (rx T n).drop (5 * (n - 1 - i)) = rxBit T i ++ rx T i := by
  induction n with
  | zero => omega
  | succ n ih =>
    rcases Nat.lt_succ_iff_lt_or_eq.1 h with hlt | rfl
    · rw [show 5 * (n + 1 - 1 - i) = 5 * (n - 1 - i) + 5 by omega]
      exact ih hlt
    · simp [rx, rxBit]

/-- What the first `k` micro-operations of bit `i` leave (R26, R171; log 14). -/
theorem performAll_rxBit (T : Nat) {i k : Nat} (s : State) (h1 : 1 ≤ k) (h5 : k ≤ 5) :
    let t := performAll ((rxBit T i).take k) s
    t.tcnt = BitVec.ofNat 5 i ∧ t.upc = s.upc + k ∧ t.tsr = s.tsr ∧
      t.rsr = if 4 ≤ k then setBit s.rsr i s.nextLevel else s.rsr := by
  have hk : k = 1 ∨ k = 2 ∨ k = 3 ∨ k = 4 ∨ k = 5 := by omega
  have hl (u : State) (hs : u.doScript = s.doScript) (hd : u.drawn = s.drawn) : u.nextLevel = s.nextLevel := nextLevel_congr hs hd
  rcases hk with rfl | rfl | rfl | rfl | rfl <;> simp [rxBit, performAll, hl]

/-- Settles O53: bit `i`'s micro-operations stand at `UPC`, and each small step performs one of them. -/
theorem receiverPosition : Obligations.ReceiverPosition := by
  unfold Obligations.ReceiverPosition
  intro s T n i k pre post hin hn _ h1 h5 hprog hupc
  have hle : 5 * (n - 1 - i) ≤ (rx T n).length := by rw [rx_length]; omega
  have hdrop : (progOf s).drop s.upc = (rxBit T i).take k ++ ((rxBit T i).drop k ++ (rx T i ++ post)) := by
    rw [hprog, hupc, List.append_assoc, List.drop_length_add_append, List.drop_append_of_le_length hle, drop_rx T hin,
      ← List.append_assoc, List.take_append_drop, List.append_assoc]
  have hpoll : .poll ∉ (rxBit T i).take k := fun h => by simpa [rxBit] using List.mem_of_mem_take h
  have hlen : ((rxBit T i).take k).length = k := by simpa [rxBit] using h5
  have hrun := seqRun_performAll hpoll hdrop
  obtain ⟨htcnt, hup, htsr, hrsr⟩ := performAll_rxBit T (i := i) s h1 h5
  have hpos : (performAll ((rxBit T i).take k) s).tcnt.toNat = i := by
    rw [htcnt, BitVec.toNat_ofNat, Nat.mod_eq_of_lt (by omega)]
  rw [hlen] at hrun
  refine ⟨_, hrun, hpos, hup, htsr, fun j hj => ?_⟩
  rw [hrsr, hpos]
  by_cases h4 : 4 ≤ k <;> simp [h4, setBit_getLsbD _ _ _ hj]

end Sys2Proof.Machine


/-! Addresses and cells (`20_memory.md` R56, R194). The address operand reaches the wires only through the micro-program, which sees it
modulo the number of cells; apart from that, running the engine carries the address latch along unread. -/

namespace Sys2Proof.Machine

/-! ### The address field holds the cell (R81, R194) -/

/-- The number of cells is what the address field can name (R4, R51). -/
theorem NCELL_eq_two_pow (m : Mode) : NCELL m = 2 ^ AW m := by cases m <;> rfl

theorem trunc_zextAddr_congr {n : Nat} {a b : Addr} (h : a.toNat % 2 ^ n = b.toNat % 2 ^ n) :
    trunc n (zextAddr a) = trunc n (zextAddr b) := by
  have hfield : (zextAddr a).setWidth n = (zextAddr b).setWidth n :=
    BitVec.eq_of_toNat_eq (by simpa [zextAddr, BitVec.toNat_setWidth_of_le] using h)
  rw [trunc, trunc, hfield]

/-- The command field is the same for two addresses of one cell, whatever the opcode (R80, R81). -/
theorem addrField_congr {m : Mode} {a b : Addr} (base : Word) (h : a.toNat % NCELL m = b.toNat % NCELL m) :
    addrField m base a = addrField m base b := by
  rw [NCELL_eq_two_pow] at h
  rw [addrField, addrField, trunc_zextAddr_congr h]

/-- `READ` sends the cell in mode `X8`, and in mode `X16` with six address bits; eight bits would be the whole operand (R79, D4). -/
theorem progRead_congr {T : Nat} {w : ReadAddrWidth} {m : Mode} {a b : Addr} (hw : m = .X8 ∨ w = .six)
    (h : a.toNat % NCELL m = b.toNat % NCELL m) : progRead T w m a = progRead T w m b := by
  cases m with
  | X8 => simp only [progRead, addrField_congr OPC_READ h]
  | X16 =>
    obtain rfl : w = .six := by simpa using hw
    have hfield : readAddrField .six a = readAddrField .six b := trunc_zextAddr_congr h
    simp only [progRead, hfield]

/-! ### Running the engine does not read the address latch -/

/-- `s` with another address in `A_L` (R27). -/
def State.withAddr (s : State) (b : Addr) : State := { s with aL := b }

@[simp] theorem withAddr_upc (s : State) (b : Addr) : (s.withAddr b).upc = s.upc := rfl

theorem setPin_withAddr (s : State) (b : Addr) (p : OutPin) (v : Level) :
    (s.withAddr b).setPin p v = (s.setPin p v).withAddr b := by
  cases p <;> rfl

theorem setDir_withAddr (s : State) (b : Addr) (p : Pin) (d : Dir) :
    (s.withAddr b).setDir p d = (s.setDir p d).withAddr b := by
  cases p <;> rfl

theorem takeLevel_withAddr (s : State) (b : Addr) : (s.withAddr b).takeLevel = s.takeLevel.withAddr b := by
  rw [takeLevel_eq, takeLevel_eq s]
  rfl

theorem microStep_withAddr (u : MicroOp) (s : State) (b : Addr) : microStep u (s.withAddr b) = (microStep u s).withAddr b := by
  cases u with
  | config p d => simp only [microStep, setDir_withAddr]; rfl
  | write p v => simp only [microStep, setPin_withAddr]; rfl
  | drive v i => rfl
  | delay n => rfl
  | hold i n => rfl
  | sample i => simp only [microStep, takeLevel_withAddr]; rfl
  | poll =>
    have hl : (s.withAddr b).nextLevel = s.nextLevel := rfl
    by_cases h : s.nextLevel = s.cfg.readyLevel
    · rw [microStep_poll_ready h, microStep_poll_ready (s := s.withAddr b) h, takeLevel_withAddr, hl]
      rfl
    · rw [microStep_poll_notReady h, microStep_poll_notReady (s := s.withAddr b) h, takeLevel_withAddr, hl]
      rfl

theorem completeStep_withAddr (s : State) (b : Addr) : completeStep (s.withAddr b) = (completeStep s).withAddr b := by
  have hop : (s.withAddr b).op = s.op := rfl
  unfold completeStep commit
  rw [hop]
  cases s.op <;> rfl

theorem runMicro_withAddr (us : List MicroOp) (s : State) (b : Addr) :
    runMicro us (s.withAddr b) = (runMicro us s).withAddr b := by
  induction us generalizing s with
  | nil => exact completeStep_withAddr s b
  | cons u rest ih =>
    simp only [runMicro, microStep_withAddr, withAddr_upc, ih]
    split <;> rfl

/-! ### Two addresses of one cell -/

/-- The micro-program sees the cell of the latched address, not the address (R172, R194). -/
theorem progOf_withAddr {s : State} {b : Addr} (hcell : s.aL.toNat % NCELL s.mode = b.toNat % NCELL s.mode)
    (hread : s.op = .read → s.mode = .X8 ∨ s.cfg.rd16aw = .six) : progOf (s.withAddr b) = progOf s := by
  have hfield (base : Word) : addrField s.mode base b = addrField s.mode base s.aL := (addrField_congr base hcell).symm
  cases ho : s.op
  case write => simp [progOf, State.withAddr, ho, progWrite, hfield]
  case erase => simp [progOf, State.withAddr, ho, progErase, hfield]
  case read => simpa [progOf, State.withAddr, ho] using (progRead_congr (hread ho) hcell).symm
  all_goals simp [progOf, State.withAddr, ho]

/-- Two instructions whose accepted states differ in the address latch alone, by addresses of one cell, end alike but for that latch. -/
theorem exec_same_cell {i j : Instr} {s t u : State} {b : Addr}
    (ht : exec i s = .next t) (hu : exec j s = .next u)
    (hacc : acceptStep j.op (latched j s) = (acceptStep i.op (latched i s)).withAddr b)
    (hcell : (latched i s).aL.toNat % NCELL s.mode = b.toNat % NCELL s.mode)
    (hread : i.op = .read → s.mode = .X8 ∨ s.cfg.rd16aw = .six) : u = t.withAddr b := by
  obtain ⟨-, -, rfl⟩ := exec_next ht
  obtain ⟨-, -, rfl⟩ := exec_next hu
  have hprog : progOf ((acceptStep i.op (latched i s)).withAddr b) = progOf (acceptStep i.op (latched i s)) :=
    progOf_withAddr (by simpa using hcell) (by simpa using hread)
  rw [started, started, hacc, hprog, runMicro_withAddr]

/-- Settles O40: each pair of instructions is accepted in states that differ in the address latch alone, so they end alike but for it. -/
theorem addressesOfOneCellAreSentAlike : Obligations.AddressesOfOneCellAreSentAlike := by
  unfold Obligations.AddressesOfOneCellAreSentAlike
  intro a b v s hcell
  refine ⟨fun t u ht hu => ?_, fun t u ht hu => ?_, fun hread t u ht hu => ?_⟩
  · obtain rfl : u = t.withAddr b := exec_same_cell ht hu rfl hcell nofun
    rfl
  · obtain rfl : u = t.withAddr b := exec_same_cell ht hu rfl hcell nofun
    rfl
  · obtain rfl : u = t.withAddr b := exec_same_cell ht hu rfl hcell fun _ => hread
    exact ⟨rfl, rfl⟩

end Sys2Proof.Machine


/-! Encoding and decoding (`30_encoding.md` R70 to R87). A frame is its fields put together, and the decoder cuts it into them again: both
directions of the round trip, and the exclusiveness of the frame table, rest on that, for either number of don't-care bits. What the chip
receives, and the clock pulses it takes, are read off the events of an instruction: its command and the response to it. -/

namespace Sys2Proof

/-! ### Frames and their fields (R71, R86) -/

section
variable {k p q : Nat}

/-- A field that stands between two others is cut out where it stands. -/
theorem extractLsb'_middle {n w : Nat} (hi : BitVec n) (f : BitVec w) (lo : BitVec k) :
    (hi ++ f ++ lo).extractLsb' k w = f := by
  rw [BitVec.extractLsb'_append_eq_of_le (le_refl k), Nat.sub_self, BitVec.extractLsb'_append_eq_right]

/-- Start bit, opcode and address put together give the same fields back. -/
theorem addrFrame_fields (hp : p = k + 2) (o : BitVec 2) (a : BitVec k) :
    (1#1 ++ o ++ a).getLsbD p = true ∧ (1#1 ++ o ++ a).extractLsb' k 2 = o ∧ (1#1 ++ o ++ a).extractLsb' 0 k = a := by
  subst hp
  refine ⟨?_, extractLsb'_middle _ _ _, BitVec.extractLsb'_append_eq_right⟩
  simp only [BitVec.getLsbD_append, show ¬ k + 2 < k by omega, if_false, Nat.add_sub_cancel_left]
  rfl

/-- Start bit, opcode, sub-code and don't-care bits put together give the same fields back. -/
theorem codeFrame_fields (hp : p = k + 4) (hq : q = k + 2) (o c : BitVec 2) (x : BitVec k) :
    (1#1 ++ o ++ c ++ x).getLsbD p = true ∧ (1#1 ++ o ++ c ++ x).extractLsb' q 2 = o ∧
      (1#1 ++ o ++ c ++ x).extractLsb' k 2 = c ∧ (1#1 ++ o ++ c ++ x).extractLsb' 0 k = x := by
  subst hp hq
  refine ⟨?_, ?_, extractLsb'_middle _ _ _, BitVec.extractLsb'_append_eq_right⟩
  · simp only [BitVec.getLsbD_append, show ¬ k + 4 < k by omega, if_false, Nat.add_sub_cancel_left]
    rfl
  · rw [BitVec.extractLsb'_append_eq_of_le (by omega), Nat.add_sub_cancel_left]
    exact extractLsb'_middle _ _ _

theorem extractLsb'_one_of_getLsbD {n : Nat} {f : BitVec n} (h : f.getLsbD p = true) : f.extractLsb' p 1 = 1#1 := by
  apply BitVec.eq_of_getLsbD_eq
  intro i hi
  obtain rfl : i = 0 := by omega
  simpa using h

/-- A frame with its start bit set is start bit, opcode and address put together. -/
theorem addrFrame_eq {f : BitVec (1 + 2 + k)} (hs : f.getLsbD (2 + k) = true) {o : BitVec 2}
    (ho : (f.extractLsb' k 2).toNat = o.toNat) : 1#1 ++ o ++ f.extractLsb' 0 k = f := by
  rw [← BitVec.eq_of_toNat_eq ho, ← extractLsb'_one_of_getLsbD hs, BitVec.extractLsb'_append_extractLsb'_eq_extractLsb' (by omega)]
  exact BitVec.extractLsb'_append_extractLsb'

/-- A frame with its start bit set is start bit, opcode, sub-code and don't-care bits put together. -/
theorem codeFrame_eq {f : BitVec (1 + 2 + 2 + k)} (hs : f.getLsbD (2 + 2 + k) = true) {o c : BitVec 2}
    (ho : (f.extractLsb' (2 + k) 2).toNat = o.toNat) (hc : (f.extractLsb' k 2).toNat = c.toNat) :
    1#1 ++ o ++ c ++ f.extractLsb' 0 k = f := by
  rw [← BitVec.eq_of_toNat_eq ho, ← BitVec.eq_of_toNat_eq hc, ← extractLsb'_one_of_getLsbD hs,
    BitVec.extractLsb'_append_extractLsb'_eq_extractLsb' (by omega),
    BitVec.extractLsb'_append_extractLsb'_eq_extractLsb' (by omega)]
  exact BitVec.extractLsb'_append_extractLsb'

end

theorem cases_two_bits (x : BitVec 2) : x = 0#2 ∨ x = 1#2 ∨ x = 2#2 ∨ x = 3#2 := by
  revert x
  decide

theorem toNat_eq_three {x : BitVec 2} (h0 : x.toNat ≠ 0) (h1 : x.toNat ≠ 1) (h2 : x.toNat ≠ 2) : x.toNat = 3 := by omega

/-! ### Both directions of the round trip -/

/-- Settles O1: a command by its code, a frame by the fields the decoder of its length cuts out of it. -/
theorem decodeInvertsEncode : Obligations.DecodeInvertsEncode := by
  unfold Obligations.DecodeInvertsEncode
  intro i
  have code4 := codeFrame_fields (k := 4) (p := 8) (q := 6) rfl rfl
  have code5 := codeFrame_fields (k := 5) (p := 9) (q := 7) rfl rfl
  have addr6 := addrFrame_fields (k := 6) (p := 8) rfl
  have addr7 := addrFrame_fields (k := 7) (p := 9) rfl
  have addr8 := addrFrame_fields (k := 8) (p := 10) rfl
  cases i with
  | construct | ewen | ewds | query | eral | wral | write | erase | read => rfl
  | setmode m => cases m <;> rfl
  | ewdsX16 | eralX16 | ewenX16 | readX16 | eraseX16 =>
    rw [encode, decode_frame9]
    simp only [decodeX16, code4, addr6]
    rfl
  | ewdsX8 | eralX8 | ewenX8 | readX8 | eraseX8 =>
    rw [encode, decode_frame10]
    simp only [decodeX8, code5, addr7]
    rfl
  | readX16A8 =>
    rw [encode, decode_frame11]
    simp only [decodeA8, addr8]
    rfl
  | wralX8 | writeX8 =>
    rw [encode, decode_frame18]
    simp only [decodeX8Data, code5, addr7]
    rfl
  | wralX16 | writeX16 =>
    rw [encode, decode_frame25]
    simp only [decodeX16Data, code4, addr6]
    rfl

theorem encode_of_decodeX16 {f : BitVec 9} {i : Instr} (h : decodeX16 f = .instr i) : encode i = .frame (wire f) := by
  unfold decodeX16 at h
  split at h
  case isFalse => cases h
  case isTrue hs =>
    split at h <;> cases h
    all_goals refine congrArg (Presented.frame ∘ wire) ?_
    case h_1 ho hc => exact codeFrame_eq (k := 4) hs ho hc
    case h_3 ho hc => exact codeFrame_eq (k := 4) hs ho hc
    case h_4 ho hc0 hc1 hc2 => exact codeFrame_eq (k := 4) hs ho (toNat_eq_three hc0 hc1 hc2)
    case h_6 ho => exact addrFrame_eq (k := 6) hs ho
    case h_7 ho0 ho1 ho2 _ _ _ => exact addrFrame_eq (k := 6) hs (toNat_eq_three ho0 ho1 ho2)

theorem encode_of_decodeX8 {f : BitVec 10} {i : Instr} (h : decodeX8 f = .instr i) : encode i = .frame (wire f) := by
  unfold decodeX8 at h
  split at h
  case isFalse => cases h
  case isTrue hs =>
    split at h <;> cases h
    all_goals refine congrArg (Presented.frame ∘ wire) ?_
    case h_1 ho hc => exact codeFrame_eq (k := 5) hs ho hc
    case h_3 ho hc => exact codeFrame_eq (k := 5) hs ho hc
    case h_4 ho hc0 hc1 hc2 => exact codeFrame_eq (k := 5) hs ho (toNat_eq_three hc0 hc1 hc2)
    case h_6 ho => exact addrFrame_eq (k := 7) hs ho
    case h_7 ho0 ho1 ho2 _ _ _ => exact addrFrame_eq (k := 7) hs (toNat_eq_three ho0 ho1 ho2)

theorem encode_of_decodeA8 {f : BitVec 11} {i : Instr} (h : decodeA8 f = .instr i) : encode i = .frame (wire f) := by
  unfold decodeA8 at h
  split at h
  case isFalse => cases h
  case isTrue hs =>
    split at h <;> cases h
    case isTrue ho => exact congrArg (Presented.frame ∘ wire) (addrFrame_eq (k := 8) hs ho)

theorem encode_of_decodeX16Data {f : BitVec 9} {d : BitVec 16} {i : Instr} (h : decodeX16Data f d = .instr i) :
    encode i = .frame (wire f ++ wire d) := by
  unfold decodeX16Data at h
  split at h
  case isFalse => cases h
  case isTrue hs =>
    split at h <;> cases h
    all_goals refine congrArg (fun f => Presented.frame (wire f ++ wire d)) ?_
    case h_1 ho hc => exact codeFrame_eq (k := 4) hs ho hc
    case h_2 ho => exact addrFrame_eq (k := 6) hs ho

theorem encode_of_decodeX8Data {f : BitVec 10} {d : BitVec 8} {i : Instr} (h : decodeX8Data f d = .instr i) :
    encode i = .frame (wire f ++ wire d) := by
  unfold decodeX8Data at h
  split at h
  case isFalse => cases h
  case isTrue hs =>
    split at h <;> cases h
    all_goals refine congrArg (fun f => Presented.frame (wire f ++ wire d)) ?_
    case h_1 ho hc => exact codeFrame_eq (k := 5) hs ho hc
    case h_2 ho => exact addrFrame_eq (k := 7) hs ho

theorem exists_wire_eq {n : Nat} {bits : List Level} (h : bits.length = n) : ∃ f : BitVec n, wire f = bits := by
  subst h
  exact ⟨_, wire_ofNat_ofWireBits bits⟩

theorem exists_wire_append_wire_eq {n k : Nat} {bits : List Level} (h : bits.length = n + k) :
    ∃ (f : BitVec n) (d : BitVec k), wire f ++ wire d = bits := by
  obtain ⟨f, hf⟩ := exists_wire_eq (n := n) (bits := bits.take n) (by simp [h])
  obtain ⟨d, hd⟩ := exists_wire_eq (n := k) (bits := bits.drop n) (by simp [h])
  exact ⟨f, d, by rw [hf, hd, List.take_append_drop]⟩

/-- R82 (c): what decodes has one of the five lengths of R87. -/
theorem length_of_decode_frame {bits : List Level} {i : Instr} (h : decode (.frame bits) = .instr i) :
    bits.length = 9 ∨ bits.length = 10 ∨ bits.length = 11 ∨ bits.length = 18 ∨ bits.length = 25 := by
  by_contra hl
  simp only [not_or] at hl
  obtain ⟨h9, h10, h11, h18, h25⟩ := hl
  simp [decode, decodeFrame, h9, h10, h11, h18, h25] at h

/-- Settles O2: of each length, the bits are the wire form of the first field (and the data field) that decoded. -/
theorem frameDecodingLosesNoBit : Obligations.FrameDecodingLosesNoBit := by
  unfold Obligations.FrameDecodingLosesNoBit
  intro bits i h
  rcases length_of_decode_frame h with hl | hl | hl | hl | hl
  · obtain ⟨f, rfl⟩ := exists_wire_eq hl
    exact encode_of_decodeX16 (decode_frame9 f ▸ h)
  · obtain ⟨f, rfl⟩ := exists_wire_eq hl
    exact encode_of_decodeX8 (decode_frame10 f ▸ h)
  · obtain ⟨f, rfl⟩ := exists_wire_eq hl
    exact encode_of_decodeA8 (decode_frame11 f ▸ h)
  · obtain ⟨f, d, rfl⟩ := exists_wire_append_wire_eq (n := 10) (k := 8) hl
    exact encode_of_decodeX8Data (decode_frame18 f d ▸ h)
  · obtain ⟨f, d, rfl⟩ := exists_wire_append_wire_eq (n := 9) (k := 16) hl
    exact encode_of_decodeX16Data (decode_frame25 f d ▸ h)

/-! ### The frame table (R86) -/

/-- The operation a frame's opcode and sub-code name (R71, R86). -/
def fieldsOp (o c : BitVec 2) : Op :=
  match o.toNat, c.toNat with
  | 0, 0 => .ewds
  | 0, 1 => .wral
  | 0, 2 => .eral
  | 0, _ => .ewen
  | 1, _ => .write
  | 2, _ => .read
  | _, _ => .erase

/-- R86's rows (operation, match, mask) in a mode with `k` don't-care bits. The mask leaves in the start bit, the opcode and, for a
control code, the sub-code. -/
def frameRows (k : Nat) : List (Op × BitVec (1 + 2 + 2 + k) × BitVec (1 + 2 + 2 + k)) :=
  [(.ewds, 1#1 ++ 0#2 ++ 0#2 ++ 0#k, 1#1 ++ 3#2 ++ 3#2 ++ 0#k), (.wral, 1#1 ++ 0#2 ++ 1#2 ++ 0#k, 1#1 ++ 3#2 ++ 3#2 ++ 0#k),
    (.eral, 1#1 ++ 0#2 ++ 2#2 ++ 0#k, 1#1 ++ 3#2 ++ 3#2 ++ 0#k), (.ewen, 1#1 ++ 0#2 ++ 3#2 ++ 0#k, 1#1 ++ 3#2 ++ 3#2 ++ 0#k),
    (.write, 1#1 ++ 1#2 ++ 0#2 ++ 0#k, 1#1 ++ 3#2 ++ 0#2 ++ 0#k), (.read, 1#1 ++ 2#2 ++ 0#2 ++ 0#k, 1#1 ++ 3#2 ++ 0#2 ++ 0#k),
    (.erase, 1#1 ++ 3#2 ++ 0#2 ++ 0#k, 1#1 ++ 3#2 ++ 0#2 ++ 0#k)]

/-- A frame matches a row when its masked opcode and sub-code do. -/
theorem frame_and_mask_eq_iff {k : Nat} (o c o' c' mo mc : BitVec 2) (x : BitVec k) :
    (1#1 ++ o ++ c ++ x) &&& (1#1 ++ mo ++ mc ++ 0#k) = 1#1 ++ o' ++ c' ++ 0#k ↔ o &&& mo = o' ∧ c &&& mc = c' := by
  simp only [BitVec.and_append, BitVec.and_zero, BitVec.and_self, BitVec.append_left_inj]
  refine ⟨fun h => ?_, fun ⟨ho, hc⟩ => by rw [ho, hc]⟩
  obtain ⟨-, ho, hc⟩ := addrFrame_fields (p := 4) rfl (o &&& mo) (c &&& mc)
  obtain ⟨-, ho', hc'⟩ := addrFrame_fields (p := 4) rfl o' c'
  exact ⟨by rw [← ho, h, ho'], by rw [← hc, h, hc']⟩

/-- A row of the table matches the frames of its own operation and no others. -/
theorem frameRow_matches_iff {k : Nat} {r : Op × BitVec (1 + 2 + 2 + k) × BitVec (1 + 2 + 2 + k)} (hr : r ∈ frameRows k)
    (o c : BitVec 2) (x : BitVec k) : (1#1 ++ o ++ c ++ x) &&& r.2.2 = r.2.1 ↔ r.1 = fieldsOp o c := by
  simp only [frameRows, List.mem_cons, List.not_mem_nil, or_false] at hr
  rcases hr with rfl | rfl | rfl | rfl | rfl | rfl | rfl
  all_goals
    rw [frame_and_mask_eq_iff]
    dsimp only
    revert o c
    decide

theorem exists_frameRow (k : Nat) (o c : BitVec 2) : ∃ r ∈ frameRows k, r.1 = fieldsOp o c := by
  have h : fieldsOp o c ∈ (frameRows k).map Prod.fst := by
    simp only [frameRows, List.map_cons, List.map_nil]
    revert o c
    decide
  simpa using h

theorem frameRow_eq_of_op_eq {k : Nat} : ∀ r ∈ frameRows k, ∀ r' ∈ frameRows k, r.1 = r'.1 → r = r' := by
  have h : ((frameRows k).map Prod.fst).Nodup := by
    simp only [frameRows, List.map_cons, List.map_nil]
    decide
  exact List.inj_on_of_nodup_map h

/-- A first field with its start bit set matches one row, that of the operation its opcode and sub-code name. -/
theorem frameRow_of_startBit {k : Nat} {f : BitVec (1 + 2 + 2 + k)} (hs : f.getLsbD (2 + 2 + k) = true) :
    (∃! r, r ∈ frameRows k ∧ f &&& r.2.2 = r.2.1) ∧
      ∀ r ∈ frameRows k, f &&& r.2.2 = r.2.1 → r.1 = fieldsOp (f.extractLsb' (2 + k) 2) (f.extractLsb' k 2) := by
  have hmatch {r} (hr : r ∈ frameRows k) :
      f &&& r.2.2 = r.2.1 ↔ r.1 = fieldsOp (f.extractLsb' (2 + k) 2) (f.extractLsb' k 2) := by
    have h := frameRow_matches_iff hr (f.extractLsb' (2 + k) 2) (f.extractLsb' k 2) (f.extractLsb' 0 k)
    rwa [codeFrame_eq hs rfl rfl] at h
  obtain ⟨r, hr, hop⟩ := exists_frameRow k (f.extractLsb' (2 + k) 2) (f.extractLsb' k 2)
  refine ⟨⟨r, ⟨hr, (hmatch hr).2 hop⟩, fun r' ⟨hr', hm⟩ => ?_⟩, fun r hr => (hmatch hr).1⟩
  exact frameRow_eq_of_op_eq r' hr' r hr (((hmatch hr').1 hm).trans hop.symm)

/-- With its start bit set, an `X16` value is the first field of a frame of the operation its fields name, alone or with data. -/
theorem decodeX16_op {f : BitVec 9} (hs : f.getLsbD 8 = true) (d : BitVec 16) :
    ∃ i, (decodeX16 f = .instr i ∨ decodeX16Data f d = .instr i) ∧ i.op = fieldsOp (f.extractLsb' 6 2) (f.extractLsb' 4 2) ∧
      i.frameMode = some .X16 := by
  simp only [decodeX16, decodeX16Data, hs, if_true]
  generalize f.extractLsb' 6 2 = o, f.extractLsb' 4 2 = c
  rcases cases_two_bits o with rfl | rfl | rfl | rfl
  · rcases cases_two_bits c with rfl | rfl | rfl | rfl
    · exact ⟨_, .inl rfl, rfl, rfl⟩
    · exact ⟨_, .inr rfl, rfl, rfl⟩
    · exact ⟨_, .inl rfl, rfl, rfl⟩
    · exact ⟨_, .inl rfl, rfl, rfl⟩
  · exact ⟨_, .inr rfl, rfl, rfl⟩
  · exact ⟨_, .inl rfl, rfl, rfl⟩
  · exact ⟨_, .inl rfl, rfl, rfl⟩

/-- The same of an `X8` value. -/
theorem decodeX8_op {f : BitVec 10} (hs : f.getLsbD 9 = true) (d : BitVec 8) :
    ∃ i, (decodeX8 f = .instr i ∨ decodeX8Data f d = .instr i) ∧ i.op = fieldsOp (f.extractLsb' 7 2) (f.extractLsb' 5 2) ∧
      i.frameMode = some .X8 := by
  simp only [decodeX8, decodeX8Data, hs, if_true]
  generalize f.extractLsb' 7 2 = o, f.extractLsb' 5 2 = c
  rcases cases_two_bits o with rfl | rfl | rfl | rfl
  · rcases cases_two_bits c with rfl | rfl | rfl | rfl
    · exact ⟨_, .inl rfl, rfl, rfl⟩
    · exact ⟨_, .inr rfl, rfl, rfl⟩
    · exact ⟨_, .inl rfl, rfl, rfl⟩
    · exact ⟨_, .inl rfl, rfl, rfl⟩
  · exact ⟨_, .inr rfl, rfl, rfl⟩
  · exact ⟨_, .inl rfl, rfl, rfl⟩
  · exact ⟨_, .inl rfl, rfl, rfl⟩

/-- Settles O5: the table's match and its operation are those of `frameRows`, with 4 and with 5 don't-care bits. -/
theorem frameTableExclusiveAndComplete : Obligations.FrameTableExclusiveAndComplete := by
  unfold Obligations.FrameTableExclusiveAndComplete
  refine ⟨fun f hs => ?_, fun f hs => ?_⟩
  · obtain ⟨hunique, hop⟩ := frameRow_of_startBit (k := 4) hs
    exact ⟨hunique, fun r hr hm d => hop r hr hm ▸ decodeX16_op hs d⟩
  · obtain ⟨hunique, hop⟩ := frameRow_of_startBit (k := 5) hs
    exact ⟨hunique, fun r hr hm d => hop r hr hm ▸ decodeX8_op hs d⟩

/-! ### The command port and the worked frames (R70, R83) -/

theorem decodeCommand_reserved {cmd : BitVec 4} (h : 10 ≤ cmd.toNat) (addr : Addr) (val : Word) (modeIn : Level) :
    decodeCommand cmd addr val modeIn = .rejected (.reservedCode cmd) := by
  unfold decodeCommand
  split
  case h_11 => rfl
  all_goals omega

/-- Settles O3: the ten codes by evaluation, the other six by `decodeCommand_reserved`. -/
theorem commandCodesDecode : Obligations.CommandCodesDecode := by
  unfold Obligations.CommandCodesDecode
  intro cmd addr val modeIn
  exact ⟨rfl, rfl, rfl, rfl, rfl, rfl, rfl, rfl, rfl, rfl, rfl, fun h => decodeCommand_reserved h addr val modeIn⟩

/-- Settles O4: each frame written out is the encoding of the instruction it stands for. -/
theorem specFramesDecode : Obligations.SpecFramesDecode := by
  unfold Obligations.SpecFramesDecode
  exact ⟨decodeInvertsEncode (.writeX16 5 0x1234), decodeInvertsEncode (.ewenX8 0), decodeInvertsEncode (.ewdsX16 0),
    decodeInvertsEncode (.eraseX8 0x10), decodeInvertsEncode (.readX16A8 0xC5)⟩

/-! ### A number cut into fields (R54) -/

/-- The low `n + k` bits are those above the low `k`, then the low `k`. -/
theorem wireBits_add (v n k : Nat) : wireBits v (n + k) = wireBits (v / 2 ^ k) n ++ wireBits v k := by
  induction n with
  | zero => simp [wireBits]
  | succ n ih =>
    rw [Nat.add_right_comm, wireBits, ih, wireBits, Nat.testBit_div_two_pow, Nat.add_comm n k, List.cons_append]

theorem wire_append {n k : Nat} (x : BitVec n) (y : BitVec k) : wire (x ++ y) = wire x ++ wire y := by
  have hy : y.toNat < 2 ^ k := y.isLt
  have hval : (x ++ y).toNat = 2 ^ k * x.toNat + y.toNat := by
    rw [BitVec.toNat_append, ← Nat.shiftLeft_add_eq_or_of_lt hy, Nat.shiftLeft_eq, Nat.mul_comm]
  have hhigh : (x ++ y).toNat / 2 ^ k = x.toNat := by
    rw [hval, Nat.mul_add_div (by positivity), Nat.div_eq_of_lt hy, Nat.add_zero]
  have hlow : (x ++ y).toNat % 2 ^ k = y.toNat % 2 ^ k := by rw [hval, Nat.mul_add_mod]
  rw [wire, wireBits_add, hhigh, wireBits_congr k hlow]
  rfl

theorem wire_setWidth {n : Nat} (k : Nat) (x : BitVec n) : wire (x.setWidth k) = wireBits x.toNat k :=
  wireBits_congr k (by simp)

theorem wireBits_mod (v k : Nat) : wireBits (v % 2 ^ k) k = wireBits v k := wireBits_congr k (Nat.mod_mod _ _)

end Sys2Proof

namespace Sys2Proof.Machine

/-! ### What the engine refuses (R79, R82 to R84) -/

theorem step_rejected {s : State} {p : Presented} {rest : List Presented} {why : Reject} (hb : s.busy = false)
    (hh : s.host = p :: rest) (hd : decode p = .rejected why) : step s = .refused (.notAnInstruction why) := by
  simp [step, hb, hh, hd]

/-- Settles O8: the codes that decode to nothing, presented to an idle engine. -/
theorem reservedCodesRefused : Obligations.ReservedCodesRefused := by
  unfold Obligations.ReservedCodesRefused
  intro s cmd addr val modeIn rest hb hcmd hh
  exact step_rejected hb hh (decodeCommand_reserved hcmd addr val modeIn)

/-- No frame is `CONSTRUCT`'s (R120: it sends nothing). -/
theorem op_ne_construct_of_frame {i : Instr} {m : Mode} (h : i.frameMode = some m) : i.op ≠ .construct := by
  cases i <;> cases h <;> exact nofun

theorem exec_frameRefused {i : Instr} {s : State} {m : Mode} {r : Refusal} (hs : Ready s) (hm : i.frameMode = some m)
    (hr : frameRefusal i s = some r) : exec i s = .refused r := by
  simp [exec_frame hm, operateFrame, refusalOf_ready hs (op_ne_construct_of_frame hm), hr]

/-- A `READ` frame has no don't-care bits (R79). -/
theorem wf_of_frameReadWidth {i : Instr} {w : ReadAddrWidth} (h : i.frameReadWidth = some w) : i.wf = true := by
  cases i <;> cases h <;> rfl

/-- Settles O13: the three checks of `frameRefusal`, in their order. -/
theorem frameNotEmittedRefused : Obligations.FrameNotEmittedRefused := by
  unfold Obligations.FrameNotEmittedRefused
  intro i s hs
  refine ⟨fun hwf => ?_, fun m hwf hm hne => ?_, fun m w hm heq hw hne => ?_⟩
  · cases hm : i.frameMode with
    | none =>
      obtain ⟨hwf', -⟩ := presentable_host hm s
      simp [hwf'] at hwf
    | some m => exact exec_frameRefused hs hm (by simp [frameRefusal, hwf])
  · exact exec_frameRefused hs hm (by simp [frameRefusal, hwf, hm, hne.symm])
  · exact exec_frameRefused hs hm (by simp [frameRefusal, wf_of_frameReadWidth hw, hm, heq, hw, hne.symm])

/-! ### The command field (R80, R81) -/

@[simp] theorem getLsbD_trunc (n : Nat) (v : Word) (i : Nat) : (trunc n v).getLsbD i = (decide (i < n) && v.getLsbD i) := by
  by_cases hi : i < 16
  · simp [trunc, hi]
  · rw [BitVec.getLsbD_of_ge _ _ (by omega), BitVec.getLsbD_of_ge v _ (by omega), Bool.and_false]

theorem trunc_zextAddr_toNat (n : Nat) (a : Addr) : (trunc n (zextAddr a)).toNat = a.toNat % 2 ^ n := by
  have ha : a.toNat < 2 ^ 8 := a.isLt
  have hle : a.toNat % 2 ^ n ≤ a.toNat := Nat.mod_le _ _
  have hz : (zextAddr a).toNat = a.toNat := BitVec.toNat_setWidth_of_le (by decide)
  rw [trunc, BitVec.toNat_setWidth, BitVec.toNat_setWidth, hz, Nat.mod_eq_of_lt (by omega)]

/-- A value shifted by `n` has no bit in common with a field truncated to `n` bits (R81 (c)). -/
theorem shiftLeft_and_trunc (x v : Word) (n : Nat) : x <<< n &&& trunc n v = 0#16 := by
  apply BitVec.eq_of_getLsbD_eq
  intro i hi
  by_cases h : i < n <;> simp [h]

theorem trunc_ushiftRight (v : Word) (n : Nat) : trunc n v >>> n = 0#16 := by
  apply BitVec.eq_of_getLsbD_eq
  intro i hi
  simp

/-- The three opcodes have their bits above the address field, in either mode (R72, R80). -/
theorem exists_opcode_shiftLeft {base : Word} (h : base ∈ [OPC_WRITE, OPC_READ, OPC_ERASE]) (m : Mode) :
    ∃ x : Word, base <<< SH m = x <<< AW m := by
  simp only [List.mem_cons, List.not_mem_nil, or_false] at h
  refine ⟨base >>> 6, ?_⟩
  rcases h with rfl | rfl | rfl <;> cases m <;> rfl

/-- Settles O6: the shifted opcode and the truncated address have no bit in common, so that the OR is a sum. -/
theorem addressFieldKeepsOpcode : Obligations.AddressFieldKeepsOpcode := by
  unfold Obligations.AddressFieldKeepsOpcode
  intro m base a hb
  obtain ⟨x, hx⟩ := exists_opcode_shiftLeft hb m
  refine ⟨?_, ?_, ?_⟩
  · rw [addrField, hx, BitVec.add_eq_or_of_and_eq_zero _ _ (shiftLeft_and_trunc x _ _)]
  · rw [addrField, BitVec.ushiftRight_or_distrib, trunc_ushiftRight, BitVec.or_zero]
  · rw [trunc_zextAddr_toNat, NCELL_eq_two_pow]

/-! ### The events of an instruction (R5, R140, R160) -/

/-- What follows the last frame bit of an operation that sends: the fall of `CS`; for `READ`, the response before it; for a mutating
operation, the completion wait after it, up to its first sample (R104, R107, R160). -/
def responseEvents (s : State) : List Event :=
  match s.op with
  | .read => rxEvents s.cfg.tHold (State.levels (DW s.mode) s) ++ [.W .CS false]
  | .eral | .wral | .write | .erase =>
    [.W .CS false, .W .CS true, .S s.nextLevel] ++ if s.nextLevel = s.cfg.readyLevel then [.W .CS false] else []
  | _ => [.W .CS false]

@[simp] theorem completeStep_trace (s : State) : (completeStep s).trace = s.trace := by
  obtain ⟨-, h, -⟩ := completeStep_keeps s
  exact h

theorem runMicro_wait_trace (s : State) :
    (runMicro (.write .CS false :: wait) s).trace =
      s.trace ++ ([.W .CS false, .W .CS true, .S s.nextLevel] ++ if s.nextLevel = s.cfg.readyLevel then [.W .CS false] else []) := by
  by_cases h : s.nextLevel = s.cfg.readyLevel
  · rw [runMicro_wait_ready h]
    simp [h]
  · rw [runMicro_wait_notReady h]
    simp [h]

/-- An operation that sends performs its command and its response, whether it completes or waits on. -/
theorem runMicro_sends_trace {s : State} (h : Sends s) :
    (runMicro (progOf s) s).trace = s.trace ++ (sentEvents s ++ responseEvents s) := by
  have hlevels : State.levels (DW s.mode) s.afterCommand = State.levels (DW s.mode) s :=
    (takeLevels_congr _ (afterCommand_doScript s) (afterCommand_drawn s)).1
  have hnext : s.afterCommand.nextLevel = s.nextLevel := nextLevel_congr (afterCommand_doScript s) (afterCommand_drawn s)
  rw [progOf_sends h, runMicro_command h, ← List.append_assoc, ← afterCommand_trace]
  cases ho : s.op
  case construct | setmode | query => simp [Sends, ho, Op.mutating] at h
  case ewen | ewds => simp [responseProgram, responseEvents, ho]
  case eral | wral | write | erase =>
    simp only [responseProgram, responseEvents, ho]
    rw [runMicro_wait_trace, hnext, afterCommand_cfg]
  case read =>
    simp only [responseProgram, responseEvents, ho]
    rw [runMicro_rx_pos _ (DW_pos _), hlevels]
    simp

section
variable {i : Instr} {s t : State} {es : List Event}

/-- The events of an instruction are those its run appends from the accept step on (R173). -/
theorem exec_events {es' : List Event} (h : exec i s = .next t) (ht : t.trace = s.trace ++ es)
    (hrun : (runMicro (progOf (acceptStep i.op (latched i s))) (acceptStep i.op (latched i s))).trace = s.trace ++ es') :
    es = es' := by
  obtain ⟨-, -, rfl⟩ := exec_next h
  exact List.append_cancel_left (ht.symm.trans hrun)

theorem exec_events_sends (h : exec i s = .next t) (ht : t.trace = s.trace ++ es) (hs : Sends (acceptStep i.op (latched i s))) :
    es = sentEvents (acceptStep i.op (latched i s)) ++ responseEvents (acceptStep i.op (latched i s)) :=
  exec_events h ht (by simpa using runMicro_sends_trace hs)

theorem exec_events_silent (h : exec i s = .next t) (ht : t.trace = s.trace ++ es)
    (hs : ¬ Sends (acceptStep i.op (latched i s))) (hc : i.op ≠ .construct) : es = [] :=
  exec_events h ht (by simp [progOf_silent hs hc])

theorem exec_events_construct (h : exec i s = .next t) (ht : t.trace = s.trace ++ es) (hc : i.op = .construct) :
    es = [.CFG .CS .output, .CFG .SK .output, .CFG .DI .output, .CFG .DO .input] :=
  exec_events h ht (by simp [progOf, hc, progConstruct])

end

/-! ### Clock pulses (R87) -/

/-- The clock pulses of an operation's command, one per frame bit (R71, R79, R87). -/
def commandPulses (op : Op) (w : ReadAddrWidth) (m : Mode) : Nat :=
  match op, m with
  | .wral, _ | .write, _ => 1 + OW m + DW m
  | .read, .X16 => 1 + 2 + readAddrBits w
  | .construct, _ | .setmode, _ | .query, _ => 0
  | _, _ => 1 + OW m

theorem pulses_readCommand (T : Nat) (w : ReadAddrWidth) (m : Mode) (a : Addr) :
    pulses (readCommandEvents T w m a) = commandPulses .read w m := by
  cases m
  case X8 => simp [readCommandEvents, commandPulses]
  case X16 => simp only [readCommandEvents, commandPulses, pulses_append, pulses_tx, pulses, Nat.zero_add]

theorem pulses_sentEvents {s : State} (h : Sends s) : pulses (sentEvents s) = commandPulses s.op s.cfg.rd16aw s.mode := by
  cases ho : s.op
  case construct | setmode | query => simp [Sends, ho, Op.mutating] at h
  case read => simp only [sentEvents, ho, pulses_readCommand]
  all_goals simp [sentEvents, ho, mutatingCommand, commandPulses, pulses_append]

/-- `READ` takes a clock pulse per sampled bit, the completion wait none (R104). -/
theorem pulses_responseEvents (s : State) : pulses (responseEvents s) = if s.op = .read then DW s.mode else 0 := by
  cases ho : s.op
  case eral | wral | write | erase =>
    simp only [responseEvents, ho]
    split <;> rfl
  all_goals simp [responseEvents, ho, pulses_append, pulses]

theorem pulses_step_waiting {s t : State} {es : List Event} (hw : Waiting s) (h : step s = .next t)
    (ht : t.trace = s.trace ++ es) : pulses es = 0 := by
  by_cases hl : s.nextLevel = s.cfg.readyLevel
  · rw [step_waiting_ready hw hl] at h
    obtain rfl := Host.Outcome.next.inj h
    obtain rfl := List.append_cancel_left ht
    rfl
  · rw [step_waiting_notReady hw hl] at h
    obtain rfl := Host.Outcome.next.inj h
    rw [emit_trace, takeLevel_trace] at ht
    obtain rfl := List.append_cancel_left ht
    rfl

theorem pulses_exec_sends {i : Instr} {s t : State} {es : List Event} (h : exec i s = .next t) (ht : t.trace = s.trace ++ es)
    (hs : i.op = .ewen ∨ i.op = .ewds ∨ i.op = .read ∨ (i.op.mutating = true ∧ s.ew = true)) :
    pulses es = commandPulses i.op s.cfg.rd16aw s.mode + if i.op = .read then DW s.mode else 0 := by
  have hsends := (sends_accepted i s).2 hs
  rw [exec_events_sends h ht hsends, pulses_append, pulses_sentEvents hsends, pulses_responseEvents]
  simp

theorem pulses_exec_silent {i : Instr} {s t : State} {es : List Event} (h : exec i s = .next t) (ht : t.trace = s.trace ++ es)
    (hs : i.op = .construct ∨ i.op = .setmode ∨ i.op = .query ∨ (i.op.mutating = true ∧ s.ew = false)) : pulses es = 0 := by
  by_cases hc : i.op = .construct
  · rw [exec_events_construct h ht hc]
    rfl
  · rw [exec_events_silent h ht (not_sends_accepted hs) hc]
    rfl

/-- Settles O45: by operation, and for a mutating one by `EW`, what sends nothing and what sends a frame. -/
theorem clockPulsesPerOperation : Obligations.ClockPulsesPerOperation := by
  unfold Obligations.ClockPulsesPerOperation
  refine ⟨fun s t es => pulses_step_waiting, fun i s t es h ht => ?_⟩
  cases ho : i.op
  case construct | setmode | query => exact pulses_exec_silent h ht (by simp [ho])
  case ewen | ewds => simpa [ho, commandPulses] using pulses_exec_sends h ht (by simp [ho])
  case eral | wral | write | erase =>
    cases he : s.ew
    · exact pulses_exec_silent h ht (by simp [ho, he, Op.mutating])
    · simpa [ho, commandPulses] using pulses_exec_sends h ht (by simp [ho, he, Op.mutating])
  case read =>
    rw [pulses_exec_sends h ht (by simp [ho]), ho]
    cases s.mode <;> rfl

/-! ### What the chip receives (R7, R71) -/

/-- Start bit and command field in wire order (R71). -/
def commandBits (m : Mode) (cf : Word) : List Level := true :: wireBits cf.toNat (OW m)

/-- The fields an operation shifts out, in wire order (R71, R73 to R79, R80). -/
def sentBits (op : Op) (w : ReadAddrWidth) (m : Mode) (a : Addr) (v : Word) : List Level :=
  match op, m with
  | .ewen, _ => commandBits m (codeField m CC_EWEN)
  | .ewds, _ => commandBits m (codeField m CC_EWDS)
  | .eral, _ => commandBits m (codeField m CC_ERAL)
  | .wral, _ => commandBits m (codeField m CC_WRAL) ++ wireBits (dataField m v).toNat (DW m)
  | .write, _ => commandBits m (addrField m OPC_WRITE a) ++ wireBits (dataField m v).toNat (DW m)
  | .erase, _ => commandBits m (addrField m OPC_ERASE a)
  | .read, .X16 => true :: (wireBits 2 2 ++ wireBits (readAddrField w a).toNat (readAddrBits w))
  | .read, .X8 => commandBits .X8 (addrField .X8 OPC_READ a)
  | .construct, _ | .setmode, _ | .query, _ => []

theorem framesFrom_sentEvents {s : State} (h : Sends s) (es : List Event) :
    framesFrom false false [] (sentEvents s ++ es) =
      framesFrom true false (sentBits s.op s.cfg.rd16aw s.mode s.aL s.vL) es := by
  cases ho : s.op
  case construct | setmode | query => simp [Sends, ho, Op.mutating] at h
  case ewen | ewds | eral | erase => simp only [sentEvents, ho, mutatingCommand, framesFrom_command, sentBits, commandBits]
  case wral | write =>
    simp only [sentEvents, ho, mutatingCommand, List.append_assoc, framesFrom_command, framesFrom_tx _ _ (DW_pos s.mode), sentBits,
      commandBits]
  case read =>
    cases hm : s.mode
    case X8 => simp only [sentEvents, ho, hm, readCommandEvents, framesFrom_command, sentBits, commandBits]
    case X16 =>
      simp only [sentEvents, ho, hm, readCommandEvents, List.append_assoc, List.cons_append, List.nil_append, framesFrom]
      rw [framesFrom_tx _ _ (by decide), framesFrom_tx _ _ (by decide), framesFrom_tx _ _ (readAddrBits_pos _)]
      rfl

/-- The frame ends with the fall of `CS`, after a 0 per response pulse for `READ`; a completion wait is an empty frame of its own, whether it
is over or goes on. -/
theorem framesFrom_responseEvents {s : State} {op : Op} (ho : s.op = op) (cur : List Level) :
    framesFrom true false cur (responseEvents s) =
      (if op = .read then cur ++ List.replicate (DW s.mode) false else cur) :: (if op.mutating then [[]] else []) := by
  cases op
  case eral | wral | write | erase =>
    simp only [responseEvents, ho]
    split <;> rfl
  case read => simp [responseEvents, ho, framesFrom_rx, framesFrom, Op.mutating]
  all_goals simp [responseEvents, ho, framesFrom, Op.mutating]

/-- The latches hold the operands of an operation that sends them. -/
theorem sentBits_latched (i : Instr) (s : State) (w : ReadAddrWidth) (m : Mode) :
    sentBits i.op w m (latched i s).aL (latched i s).vL = sentBits i.op w m (addrOf i) (valueOf i) := by
  cases m <;> cases i <;> rfl

/-- What the chip receives of an instruction that sends a frame. -/
theorem framesOf_exec {i : Instr} {s t : State} {es : List Event} (h : exec i s = .next t) (ht : t.trace = s.trace ++ es)
    (hcs : s.cs = false) (hdi : s.di = false)
    (hs : i.op = .ewen ∨ i.op = .ewds ∨ i.op = .read ∨ (i.op.mutating = true ∧ s.ew = true)) :
    framesOf s.lines es =
      (if i.op = .read then sentBits i.op s.cfg.rd16aw s.mode (addrOf i) (valueOf i) ++ List.replicate (DW s.mode) false
        else sentBits i.op s.cfg.rd16aw s.mode (addrOf i) (valueOf i)) :: (if i.op.mutating then [[]] else []) := by
  have hsends := (sends_accepted i s).2 hs
  rw [exec_events_sends h ht hsends, framesOf, show s.lines.CS = false from hcs, show s.lines.DI = false from hdi,
    framesFrom_sentEvents hsends, framesFrom_responseEvents (acceptStep_op _ _)]
  simp [sentBits_latched]

/-! ### The frame table on the wire (R73 to R79) -/

/-- A data field is the low bits of the value (R80, R81 (d)). -/
theorem wireBits_dataField (m : Mode) (v : Word) : wireBits (dataField m v).toNat (DW m) = wireBits v.toNat (DW m) := by
  apply wireBits_congr
  cases m <;> simp [dataField, trunc, DW]

theorem wireBits_readAddrField (w : ReadAddrWidth) (a : Addr) :
    wireBits (readAddrField w a).toNat (readAddrBits w) = wireBits a.toNat (readAddrBits w) := by
  rw [readAddrField, trunc_zextAddr_toNat, wireBits_mod]

/-- A command field with an address is its opcode, then the low bits of the address (R80, R81 (b)). -/
theorem commandBits_addrField {base : Word} (h : base ∈ [OPC_WRITE, OPC_READ, OPC_ERASE]) (m : Mode) (a : Addr) :
    commandBits m (addrField m base a) = true :: (wireBits (base.toNat / 64) 2 ++ wireBits a.toNat (AW m)) := by
  have hwidth : OW m = 2 + AW m := by cases m <;> rfl
  have hhigh : (addrField m base a).toNat / 2 ^ AW m = base.toNat / 64 := by
    obtain ⟨-, hopcode, -⟩ := addressFieldKeepsOpcode m base a h
    rw [← Nat.shiftRight_eq_div_pow, ← BitVec.toNat_ushiftRight, hopcode]
    simp only [List.mem_cons, List.not_mem_nil, or_false] at h
    rcases h with rfl | rfl | rfl <;> cases m <;> rfl
  have hlow : (addrField m base a).setWidth (AW m) = a.setWidth (AW m) := by
    obtain ⟨x, hx⟩ := exists_opcode_shiftLeft h m
    have hle : AW m ≤ 16 := by cases m <;> decide
    apply BitVec.eq_of_getLsbD_eq
    intro i hi
    rw [addrField, hx]
    simp only [BitVec.getLsbD_setWidth, BitVec.getLsbD_or, BitVec.getLsbD_shiftLeft, getLsbD_trunc, zextAddr]
    simp [hi, show i < 16 by omega]
  rw [commandBits, hwidth, wireBits_add, hhigh, ← wire_setWidth (AW m), hlow, wire_setWidth]

/-- The rows of the frame table spell the fields the operations shift out. -/
theorem encode_frameRow {op : Op} {w : ReadAddrWidth} {m : Mode} {a : Addr} {v : Word} {r : Instr}
    (h : frameRow op w m a v = some r) : encode r = .frame (sentBits op w m a v) := by
  cases op
  case construct | setmode | query => cases h
  case ewen | ewds | eral => cases m <;> cases h <;> rfl
  case wral =>
    rw [sentBits, wireBits_dataField]
    cases m <;> cases h
    · rfl
    · rw [encode, wire_setWidth]
      rfl
  case write =>
    rw [sentBits, wireBits_dataField, commandBits_addrField (by simp)]
    cases m <;> cases h
    · rw [encode, wire_append, wire_setWidth]
      rfl
    · rw [encode, wire_append, wire_setWidth, wire_setWidth]
      rfl
  case erase =>
    rw [sentBits, commandBits_addrField (by simp)]
    cases m <;> cases h
    all_goals
      rw [encode, wire_append, wire_setWidth]
      rfl
  case read =>
    cases m
    case X8 =>
      cases h
      rw [sentBits, commandBits_addrField (by simp), encode, wire_append, wire_setWidth]
      rfl
    case X16 =>
      rw [sentBits, wireBits_readAddrField]
      cases w <;> cases h
      · rw [encode, wire_append, wire_setWidth]
        rfl
      · rw [encode, wire_append]
        rfl

theorem sends_of_frameRow {op : Op} {w : ReadAddrWidth} {m : Mode} {a : Addr} {v : Word} {r : Instr} {ew : Bool}
    (h : frameRow op w m a v = some r) (hgate : op.mutating = true → ew = true) :
    op = .ewen ∨ op = .ewds ∨ op = .read ∨ (op.mutating = true ∧ ew = true) := by
  cases op
  case construct | setmode | query => cases h
  case ewen | ewds | read => simp
  case eral | wral | write | erase => exact .inr (.inr (.inr ⟨rfl, hgate rfl⟩))

/-- Settles O43: the chip receives the fields the operation shifts out, and those are the row's bits. -/
theorem wireCarriesTheTableFrame : Obligations.WireCarriesTheTableFrame := by
  unfold Obligations.WireCarriesTheTableFrame
  intro i r s t bits es h ht hcs hdi hgate hrow hbits
  obtain rfl := Presented.frame.inj (hbits.symm.trans (encode_frameRow hrow))
  exact framesOf_exec h ht hcs hdi (sends_of_frameRow hrow hgate)

/-- The row of the operation a presentable frame asks for, with the operands it spells, is that frame (R73 to R79, R82). -/
theorem frameRow_self {i : Instr} {s : State} {m : Mode} (hm : i.frameMode = some m) (hp : Presentable i s) :
    frameRow i.op s.cfg.rd16aw s.mode (addrOf i) (valueOf i) = some i := by
  obtain ⟨hwf, hmode, hwidth⟩ := hp
  rw [hmode m hm]
  cases i
  case construct | setmode | ewen | ewds | query | eral | wral | write | erase | read => cases hm
  case ewenX16 | ewenX8 | ewdsX16 | ewdsX8 | eralX16 | eralX8 | wralX16 | wralX8 =>
    cases hm
    obtain rfl := eq_of_beq hwf
    simp [frameRow, Instr.op, valueOf]
  case writeX16 | writeX8 | eraseX16 | eraseX8 | readX8 =>
    cases hm
    simp [frameRow, Instr.op, addrOf, valueOf]
  case readX16 | readX16A8 =>
    cases hm
    rw [hwidth _ rfl]
    simp [frameRow, Instr.op, addrOf]

theorem frameMode_of_encode_frame {i : Instr} {bits : List Level} (h : encode i = .frame bits) : ∃ m, i.frameMode = some m := by
  cases i <;> cases h <;> exact ⟨_, rfl⟩

/-- Settles O44: a presentable frame is the row of the operation it asks for. -/
theorem frameInstructionSendsItself : Obligations.FrameInstructionSendsItself := by
  unfold Obligations.FrameInstructionSendsItself
  intro i s bits hbits hready hp hcs hdi hgate
  obtain ⟨m, hm⟩ := frameMode_of_encode_frame hbits
  have hexec := exec_started (refusalOf_ready hready (op_ne_construct_of_frame hm)) hp
  obtain ⟨-, -, es, ht⟩ := started_keeps i s
  exact ⟨_, es, hexec, ht, wireCarriesTheTableFrame i i s _ bits es hexec ht hcs hdi hgate (frameRow_self hm hp) hbits⟩

/-- Settles O41: the fields of the three operations, by evaluation in each mode. -/
theorem fixedFramePatterns : Obligations.FixedFramePatterns := by
  unfold Obligations.FixedFramePatterns
  intro s t es hcs hdi ht
  refine ⟨fun h => ?_, fun h => ?_, fun h he => ?_⟩
  · rw [framesOf_exec h ht hcs hdi (.inl rfl)]
    cases s.mode <;> rfl
  · rw [framesOf_exec h ht hcs hdi (.inr (.inl rfl))]
    cases s.mode <;> rfl
  · rw [framesOf_exec h ht hcs hdi (.inr (.inr (.inr ⟨rfl, he⟩)))]
    cases s.mode <;> rfl

/-- Settles O42: the fields of the three operations, the address and the value cut to their widths. -/
theorem operandFramePatterns : Obligations.OperandFramePatterns := by
  unfold Obligations.OperandFramePatterns
  intro a v s t es hcs hdi ht he
  have h6 : wireBits (a.toNat % 64) 6 = wireBits a.toNat 6 := wireBits_mod a.toNat 6
  have h7 : wireBits (a.toNat % 128) 7 = wireBits a.toNat 7 := wireBits_mod a.toNat 7
  refine ⟨fun h => ?_, fun h => ?_, fun h => ?_⟩
  · rw [framesOf_exec h ht hcs hdi (.inr (.inr (.inr ⟨rfl, he⟩)))]
    simp only [Instr.op, sentBits, valueOf, wireBits_dataField]
    cases s.mode <;> rfl
  · rw [framesOf_exec h ht hcs hdi (.inr (.inr (.inr ⟨rfl, he⟩))), h6, h7]
    simp only [Instr.op, sentBits, addrOf, valueOf, wireBits_dataField, commandBits_addrField (base := OPC_WRITE) (by simp)]
    cases s.mode <;> rfl
  · rw [framesOf_exec h ht hcs hdi (.inr (.inr (.inr ⟨rfl, he⟩))), h6, h7]
    simp only [Instr.op, sentBits, addrOf, commandBits_addrField (base := OPC_ERASE) (by simp)]
    cases s.mode <;> rfl

end Sys2Proof.Machine

/-! The primitives (`40_primitives.md` R100 to R106): the transmitter and the receiver, whose properties follow bit by bit from what the
events of one bit do, and the completion wait, where each poll that does not see `READY_LEVEL` leaves the engine where it stood. -/

namespace Sys2Proof.Machine

/-! ### The transmitter (R100, R101) -/

/-- The six events of one bit of `TX` (R100). -/
def txBitEvents (T : Nat) (b : Level) : List Event :=
  [.W .DI b, .D T, .W .SK true, .D T, .W .SK false, .W .DI false]

theorem txEvents_succ (T : Nat) (v : Word) (n : Nat) :
    txEvents T v (n + 1) = txBitEvents T (v.getLsbD n) ++ txEvents T v n := rfl

theorem linesAfter_txBit (T : Nat) (b : Level) (l : Lines) :
    linesAfter l (txBitEvents T b) = { CS := l.CS, SK := false, DI := false } := rfl

/-- `DI` changes to the bit and back to 0, `SK` goes up and down; a line already at the level written does not change. -/
theorem transitions_txBit (T : Nat) (b : Level) (l : Lines) :
    transitions l (txBitEvents T b) =
      (if l.DI = b then [] else [(.DI, b)]) ++ (if l.SK then [] else [(.SK, true)]) ++ [(.SK, false)] ++
        if b then [(.DI, false)] else [] := by
  obtain ⟨cs, sk, di⟩ := l
  cases sk <;> cases di <;> cases b <;> rfl

theorem length_txEvents (T : Nat) (v : Word) (n : Nat) : (txEvents T v n).length = 6 * n := by
  induction n with
  | zero => rfl
  | succ n ih =>
    rw [txEvents_succ, List.length_append, ih, Nat.mul_succ, Nat.add_comm]
    rfl

theorem length_writes_txEvents (T : Nat) (v : Word) (n : Nat) : (writes (txEvents T v n)).length = 4 * n := by
  induction n with
  | zero => rfl
  | succ n ih =>
    rw [txEvents_succ, writes_append, List.length_append, ih, Nat.mul_succ, Nat.add_comm]
    rfl

theorem samples_append (a b : List Event) : samples (a ++ b) = samples a ++ samples b := by
  induction a with
  | nil => rfl
  | cons e a ih => cases e <;> simp [samples, ih]

theorem samples_txEvents (T : Nat) (v : Word) (n : Nat) : samples (txEvents T v n) = [] := by
  induction n with
  | zero => rfl
  | succ n ih =>
    rw [txEvents_succ, samples_append, ih]
    rfl

theorem length_delays_txEvents (T : Nat) (v : Word) (n : Nat) :
    ((txEvents T v n).filter (fun e => e = .D T)).length = 2 * n := by
  induction n with
  | zero => rfl
  | succ n ih =>
    rw [txEvents_succ, List.filter_append, List.length_append, ih]
    simp [txBitEvents, Nat.mul_succ, Nat.add_comm]

/-- R101 (b). -/
theorem linesAfter_txEvents (T : Nat) (v : Word) {n : Nat} (h : 1 ≤ n) (l : Lines) :
    linesAfter l (txEvents T v n) = { CS := l.CS, SK := false, DI := false } := by
  induction n, h using Nat.le_induction generalizing l with
  | base => rfl
  | succ n _ ih => rw [txEvents_succ, linesAfter_append, ih, linesAfter_txBit]

/-- R101 (c), for either edge. -/
theorem length_edges_txEvents (T : Nat) (v : Word) (n : Nat) {l : Lines} (h : l.SK = false) (edge : Level) :
    ((transitions l (txEvents T v n)).filter (fun x => x = (.SK, edge))).length = n := by
  induction n generalizing l with
  | zero => rfl
  | succ n ih =>
    have hbit : ((transitions l (txBitEvents T (v.getLsbD n))).filter (fun x => x = (.SK, edge))).length = 1 := by
      rw [transitions_txBit, h]
      cases edge <;> cases l.DI <;> cases v.getLsbD n <;> rfl
    rw [txEvents_succ, transitions_append, List.filter_append, List.length_append, hbit, linesAfter_txBit, ih rfl, Nat.add_comm]

/-- R101 (d). -/
theorem transitionsOf_DI_txEvents (T : Nat) (v : Word) (n : Nat) {l : Lines} (h : l.DI = false) :
    transitionsOf .DI l (txEvents T v n) = 2 * ((List.range n).filter (fun j => v.getLsbD j)).length := by
  induction n generalizing l with
  | zero => rfl
  | succ n ih =>
    have hbit : transitionsOf .DI l (txBitEvents T (v.getLsbD n)) = 2 * ([n].filter (fun j => v.getLsbD j)).length := by
      rw [transitionsOf, transitions_txBit, h]
      cases hb : v.getLsbD n <;> cases l.SK <;> simp [hb]
    have hrest := ih (l := linesAfter l (txBitEvents T (v.getLsbD n))) rfl
    rw [transitionsOf] at hbit hrest ⊢
    rw [txEvents_succ, transitions_append, List.filter_append, List.length_append, hbit, hrest, List.range_succ,
      List.filter_append, List.length_append]
    omega

/-- R101 (e). -/
theorem clockedBits_txEvents (T : Nat) (v : Word) (n : Nat) (di : Level) :
    clockedBits di (txEvents T v n) = wireBits v.toNat n := by
  induction n generalizing di with
  | zero => rfl
  | succ n ih => exact congrArg (v.getLsbD n :: ·) (ih false)

/-- `TX` sends the low `n` bits and no others. -/
theorem txEvents_congr (T : Nat) {v w : Word} {n : Nat} (h : ∀ j < n, v.getLsbD j = w.getLsbD j) :
    txEvents T v n = txEvents T w n := by
  induction n with
  | zero => rfl
  | succ n ih => rw [txEvents_succ, txEvents_succ, h n (by omega), ih fun j hj => h j (by omega)]

/-- A field is its high bits, then its low ones. -/
theorem txEvents_add (T : Nat) (v : Word) (n k : Nat) :
    txEvents T v (n + k) = txEvents T (v >>> k) n ++ txEvents T v k := by
  induction n with
  | zero => simp [txEvents]
  | succ n ih =>
    rw [Nat.add_right_comm, txEvents_succ, txEvents_succ, ih, List.append_assoc, BitVec.getLsbD_ushiftRight, Nat.add_comm n k]

/-- R101 (f). -/
theorem txEvents_append (T : Nat) (v w : Word) {n k : Nat} (h : n + k ≤ 16) :
    txEvents T v n ++ txEvents T w k = txEvents T ((trunc n v <<< k) ||| trunc k w) (n + k) := by
  have hhigh : txEvents T v n = txEvents T (((trunc n v <<< k) ||| trunc k w) >>> k) n :=
    txEvents_congr T fun j hj => by
      rw [BitVec.getLsbD_ushiftRight, BitVec.getLsbD_or, BitVec.getLsbD_shiftLeft, getLsbD_trunc, getLsbD_trunc]
      simp [hj, show k + j < 16 by omega]
  have hlow : txEvents T w k = txEvents T ((trunc n v <<< k) ||| trunc k w) k :=
    txEvents_congr T fun j hj => by simp [hj]
  rw [txEvents_add, ← hhigh, ← hlow]

/-- Settles O46: each of (a) to (f) by its own lemma, from the events of one bit. -/
theorem transmitterProperties : Obligations.TransmitterProperties := by
  unfold Obligations.TransmitterProperties
  intro T v w n k l
  exact ⟨⟨length_txEvents T v n, length_writes_txEvents T v n, samples_txEvents T v n, length_delays_txEvents T v n⟩,
    fun h => linesAfter_txEvents T v h l,
    fun h => ⟨length_edges_txEvents T v n h true, length_edges_txEvents T v n h false⟩,
    transitionsOf_DI_txEvents T v n, clockedBits_txEvents T v n l.DI, txEvents_append T v w⟩

/-! ### The receiver (R102, R103) -/

/-- The five events of one bit of `RX` (R102). -/
def rxBitEvents (T : Nat) (b : Level) : List Event := [.D T, .W .SK true, .D T, .S b, .W .SK false]

theorem rxEvents_cons (T : Nat) (b : Level) (bits : List Level) :
    rxEvents T (b :: bits) = rxBitEvents T b ++ rxEvents T bits := rfl

theorem length_rxEvents (T : Nat) (bits : List Level) : (rxEvents T bits).length = 5 * bits.length := by
  induction bits with
  | nil => rfl
  | cons b bits ih =>
    rw [rxEvents_cons, List.length_append, ih, List.length_cons, Nat.mul_succ, Nat.add_comm]
    rfl

theorem length_writes_rxEvents (T : Nat) (bits : List Level) : (writes (rxEvents T bits)).length = 2 * bits.length := by
  induction bits with
  | nil => rfl
  | cons b bits ih =>
    rw [rxEvents_cons, writes_append, List.length_append, ih, List.length_cons, Nat.mul_succ, Nat.add_comm]
    rfl

theorem samples_rxEvents (T : Nat) (bits : List Level) : samples (rxEvents T bits) = bits := by
  induction bits with
  | nil => rfl
  | cons b bits ih => exact congrArg (b :: ·) ih

theorem length_delays_rxEvents (T : Nat) (bits : List Level) :
    ((rxEvents T bits).filter (fun e => e = .D T)).length = 2 * bits.length := by
  induction bits with
  | nil => rfl
  | cons b bits ih =>
    rw [rxEvents_cons, List.filter_append, List.length_append, ih]
    simp [rxBitEvents, Nat.mul_succ, Nat.add_comm]

/-- R103 (b). -/
theorem linesAfter_rxEvents (T : Nat) {bits : List Level} (h : bits ≠ []) (l : Lines) :
    linesAfter l (rxEvents T bits) = { CS := l.CS, SK := false, DI := l.DI } := by
  induction bits generalizing l with
  | nil => exact absurd rfl h
  | cons b bits ih =>
    rw [rxEvents_cons, linesAfter_append]
    rcases eq_or_ne bits [] with rfl | hne
    · rfl
    · rw [ih hne]
      rfl

/-- R103 (c): the sample is the fourth event of its bit, after the rise of `SK` and before its fall. -/
theorem sk_high_at_sample (T : Nat) {bits : List Level} {l : Lines} {pre post : List Event} {b : Level}
    (h : rxEvents T bits = pre ++ .S b :: post) : (linesAfter l pre).SK = true := by
  induction bits generalizing l pre with
  | nil => simp [rxEvents] at h
  | cons c bits ih =>
    rw [rxEvents_cons] at h
    rcases pre with _ | ⟨e₀, _ | ⟨e₁, _ | ⟨e₂, _ | ⟨e₃, _ | ⟨e₄, pre⟩⟩⟩⟩⟩ <;> simp [rxBitEvents] at h
    · obtain ⟨rfl, rfl, rfl, -⟩ := h
      rfl
    · obtain ⟨rfl, rfl, rfl, rfl, rfl, hrest⟩ := h
      exact ih (l := { CS := l.CS, SK := false, DI := l.DI }) (pre := pre) hrest

/-- R103 (e). -/
theorem clockedBits_rxEvents (T : Nat) (bits : List Level) (di : Level) :
    clockedBits di (rxEvents T bits) = List.replicate bits.length di := by
  induction bits with
  | nil => rfl
  | cons b bits ih => exact congrArg (di :: ·) ih

/-- Settles O47: each of (a) to (e) by its own lemma, from the events of one bit. -/
theorem receiverProperties : Obligations.ReceiverProperties := by
  unfold Obligations.ReceiverProperties
  intro T bits l
  refine ⟨⟨length_rxEvents T bits, length_writes_rxEvents T bits, samples_rxEvents T bits, length_delays_rxEvents T bits⟩,
    fun h => linesAfter_rxEvents T h l, fun _ _ _ => sk_high_at_sample T, ?_, ofWireBits_lt bits,
    clockedBits_rxEvents T bits l.DI⟩
  rintro b rest rfl
  exact ofWireBits_cons b rest

/-! ### The completion wait (R104 to R106) -/

theorem op_ne_construct_of_mutating {op : Op} (h : op.mutating = true) : op ≠ .construct := by
  rintro rfl
  cases h

/-- Settles O28: the two outcomes of the poll. -/
theorem waitingStep : Obligations.WaitingStep := by
  unfold Obligations.WaitingStep
  intro s h
  refine ⟨fun hl => ⟨_, step_waiting_ready h hl, rfl, takeLevel_tsr s, takeLevel_tcnt s⟩, fun hl => ?_⟩
  rw [step_waiting_notReady h hl, State.emit, takeLevel_trace]

section
variable {i : Instr} {s : State}

/-- A ready engine accepts a mutating operation and runs it as far as one step goes (R140, log 4). -/
theorem exec_mutating (hm : i.op.mutating = true) (hr : Ready s) (hp : Presentable i s) : exec i s = .next (started i s) :=
  exec_started (refusalOf_ready hr (op_ne_construct_of_mutating hm)) hp

/-- The first sample is `READY_LEVEL`: the operation is over (R104). -/
theorem exec_mutating_ready (hm : i.op.mutating = true) (hr : Ready s) (hp : Presentable i s) (he : s.ew = true)
    (hl : s.nextLevel = s.cfg.readyLevel) :
    ∃ t, exec i s = .next t ∧
      t = { s.takeLevel.withTransients t with
        busy := false, cs := false, sk := false, di := false, ret := .nothing,
        trace := s.trace ++ mutatingCommand s.cfg.tHold s.mode i.op (addrOf i) (valueOf i)
          ++ [.W .CS false, .W .CS true, .S s.cfg.readyLevel, .W .CS false] } := by
  refine ⟨_, exec_mutating hm hr hp, ?_⟩
  obtain ⟨v, hrun⟩ := started_mutating hm he
  rw [hrun.trans (runMicro_wait_ready hl), completeStep_mutating (by simpa using hm)]
  simp only [takeLevel_eq, State.withTransients]

/-- The first sample is not `READY_LEVEL`: the operation stands before its next poll (R104, R175). -/
theorem exec_mutating_notReady (hm : i.op.mutating = true) (hr : Ready s) (hp : Presentable i s) (he : s.ew = true)
    (hl : s.nextLevel ≠ s.cfg.readyLevel) :
    ∃ t, exec i s = .next t ∧
      t = { s.takeLevel.withTransients t with
        busy := true, cs := true, sk := false, di := false,
        trace := s.trace ++ mutatingCommand s.cfg.tHold s.mode i.op (addrOf i) (valueOf i)
          ++ [.W .CS false, .W .CS true, .S s.nextLevel] } := by
  refine ⟨_, exec_mutating hm hr hp, ?_⟩
  obtain ⟨v, hrun⟩ := started_mutating hm he
  rw [hrun.trans (runMicro_wait_notReady hl)]
  simp only [takeLevel_eq, State.withTransients]
  rfl

end

/-- Settles O26: the operation ran up to its first poll, and a busy end is a wait. -/
theorem mutatingWaitsForChip : Obligations.MutatingWaitsForChip := by
  unfold Obligations.MutatingWaitsForChip
  intro i s hm hr hp he hl
  obtain ⟨t, hexec, ht⟩ := exec_mutating_notReady hm hr hp he hl
  have hend := exec_ended hexec
  exact ⟨t, hexec, hend.waiting (congrArg State.busy ht), hend.op, ht⟩

/-- `s` after `k` polls that saw the other level, with `rest` left of the environment's script. -/
def State.afterPolls (s : State) (k : Nat) (rest : List Level) : State :=
  { s with doScript := rest, trace := s.trace ++ List.replicate k (.S (!s.cfg.readyLevel)) }

theorem afterPolls_zero (s : State) : s.afterPolls 0 s.doScript = s := by simp [State.afterPolls]

theorem afterPolls_afterPolls_one (s : State) (k : Nat) (rest rest' : List Level) :
    (s.afterPolls 1 rest).afterPolls k rest' = s.afterPolls (k + 1) rest' := by
  simp [State.afterPolls, List.replicate_succ]

theorem waiting_afterPolls {s : State} (h : Waiting s) (k : Nat) (rest : List Level) : Waiting (s.afterPolls k rest) := h

theorem nextLevel_eq_of_doScript {s : State} {b : Level} {rest : List Level} (h : s.doScript = b :: rest) :
    s.nextLevel = b := by
  simp [State.nextLevel, h]

theorem takeLevel_eq_of_doScript {s : State} {b : Level} {rest : List Level} (h : s.doScript = b :: rest) :
    s.takeLevel = { s with doScript := rest } := by
  simp [State.takeLevel, h]

/-- One poll of a chip that shows the other level (R104, R105). -/
theorem step_waiting_otherLevel {s : State} {rest : List Level} (h : Waiting s)
    (hd : s.doScript = (!s.cfg.readyLevel) :: rest) : step s = .next (s.afterPolls 1 rest) := by
  have hl : s.nextLevel = !s.cfg.readyLevel := nextLevel_eq_of_doScript hd
  rw [step_waiting_notReady h (by simp [hl]), takeLevel_eq_of_doScript hd, hl]
  rfl

/-- The poll of a chip that shows `READY_LEVEL` (R104, R178). -/
theorem step_waiting_readyLevel {s : State} {rest : List Level} (h : Waiting s) (hd : s.doScript = s.cfg.readyLevel :: rest) :
    step s = .next
      { s with
        cs := false, busy := false, ret := .nothing, upc := s.upc + 2, doScript := rest,
        trace := s.trace ++ [.S s.cfg.readyLevel, .W .CS false] } := by
  rw [step_waiting_ready h (nextLevel_eq_of_doScript hd), takeLevel_eq_of_doScript hd]

/-- While the chip shows the other level, each step is one poll and the wait goes on (R105). -/
theorem runSteps_otherLevel {s : State} {k : Nat} {rest : List Level} (h : Waiting s)
    (hd : s.doScript = List.replicate k (!s.cfg.readyLevel) ++ rest) (j : Nat) :
    runSteps (k + j) s = runSteps j (s.afterPolls k rest) := by
  induction k generalizing s with
  | zero =>
    obtain rfl : s.doScript = rest := hd
    rw [afterPolls_zero, Nat.zero_add]
  | succ k ih =>
    have hstep := step_waiting_otherLevel (rest := List.replicate k (!s.cfg.readyLevel) ++ rest) h hd
    rw [Nat.add_right_comm, runSteps, hstep]
    dsimp only
    rw [ih (waiting_afterPolls h 1 _) rfl, afterPolls_afterPolls_one]

/-- Settles O30: the first poll belongs to the instruction's own step, the others are a step each. -/
theorem hangNeverReturns : Obligations.HangNeverReturns := by
  unfold Obligations.HangNeverReturns
  intro i s k rest hm hr hp he hd
  have hd' : s.doScript = (!s.cfg.readyLevel) :: (List.replicate k (!s.cfg.readyLevel) ++ rest) := hd
  have hl : s.nextLevel ≠ s.cfg.readyLevel := by simp [nextLevel_eq_of_doScript hd']
  obtain ⟨t, hexec, hw, -, ht⟩ := mutatingWaitsForChip i s hm hr hp he hl
  rw [takeLevel_eq_of_doScript hd'] at ht
  have hcfg : t.cfg = s.cfg := by rw [ht]; rfl
  have hscript : t.doScript = List.replicate k (!t.cfg.readyLevel) ++ rest := by rw [ht]; rfl
  refine ⟨t, t.afterPolls k rest, hexec, runSteps_otherLevel hw hscript 0, waiting_afterPolls hw k rest, rfl, ?_, ?_, ?_, ?_⟩
  · rw [← hcfg]
    rfl
  all_goals
    rw [ht]
    rfl

/-- Settles O29: ready at once, the instruction's own step is the whole operation; else the polls of `runSteps_otherLevel`, then one that
sees `READY_LEVEL`. -/
theorem waitEndsAtReadySample : Obligations.WaitEndsAtReadySample := by
  unfold Obligations.WaitEndsAtReadySample
  intro i s k rest hm hr hp he hd
  obtain ⟨hidle, -⟩ := id hr
  cases k with
  | zero =>
    have hd' : s.doScript = s.cfg.readyLevel :: rest := hd
    obtain ⟨t, hexec, ht⟩ := exec_mutating_ready hm hr hp he (nextLevel_eq_of_doScript hd')
    rw [takeLevel_eq_of_doScript hd'] at ht
    refine ⟨t, t, hexec, rfl, ?_⟩
    simpa [State.withTransients, hidle] using ht
  | succ k =>
    have hd' : s.doScript = (!s.cfg.readyLevel) :: (List.replicate k (!s.cfg.readyLevel) ++ s.cfg.readyLevel :: rest) := hd
    have hl : s.nextLevel = !s.cfg.readyLevel := nextLevel_eq_of_doScript hd'
    obtain ⟨t, hexec, hw, -, ht⟩ := mutatingWaitsForChip i s hm hr hp he (by simp [hl])
    rw [takeLevel_eq_of_doScript hd', hl] at ht
    have hscript : t.doScript = List.replicate k (!t.cfg.readyLevel) ++ t.cfg.readyLevel :: rest := by rw [ht]; rfl
    have hend := step_waiting_readyLevel (s := t.afterPolls k (t.cfg.readyLevel :: rest)) (waiting_afterPolls hw k _) rfl
    refine ⟨t, _, hexec, (runSteps_otherLevel hw hscript 1).trans (by rw [runSteps, hend]; rfl), ?_⟩
    rw [ht]
    simp [State.afterPolls, State.withTransients, hidle, List.replicate_succ]

end Sys2Proof.Machine

/-! Configuration (`41_config.md` R120, R121). Neither operation puts a frame on the wire: `CONSTRUCT` runs four `CFG` micro-operations,
`SETMODE` runs none, and the rest of each is its complete step. -/

namespace Sys2Proof.Machine

/-- `CONSTRUCT`'s micro-program from the accept step on: the four directions are set and the reset values written (R120, R220). -/
theorem started_construct (s : State) :
    started .construct s =
      { s with
        op := .construct, upc := 4, busy := false, ew := false, mode := .X16,
        cs := s.cfg.resetCS, sk := s.cfg.resetSK, di := s.cfg.resetDI,
        dir := { CS := .output, SK := .output, DI := .output, DO := .input }, constructed := true, ret := .nothing,
        trace := s.trace ++ [.CFG .CS .output, .CFG .SK .output, .CFG .DI .output, .CFG .DO .input] } := by
  have hrun : started .construct s = runMicro progConstruct (acceptStep .construct s) := rfl
  simp only [hrun, progConstruct, runMicro_config, runMicro_nil]
  simp [completeStep, commit, commitConstruct, acceptStep, clearForRead, State.setDir, State.emit, State.advance, State.clearEw]

/-- An instruction that sends nothing, `CONSTRUCT` apart, completes where it was accepted (R121, R132, R133). -/
theorem started_silent {i : Instr} {s : State} (hs : ¬ Sends (acceptStep i.op (latched i s))) (hc : i.op ≠ .construct) :
    started i s = completeStep (acceptStep i.op (latched i s)) := by
  rw [started, progOf_silent hs hc, runMicro_nil]

/-- Settles O16: an idle engine with good pins accepts `CONSTRUCT`, and `started_construct` says what it leaves. -/
theorem constructResult : Obligations.ConstructResult := by
  unfold Obligations.ConstructResult
  intro s hidle hpins
  have haccepted : refusalOf Instr.construct.op s = none := (refusalOf_eq_none_iff _ _).2 ⟨hidle, hpins⟩
  refine ⟨_, exec_started haccepted (presentable_host rfl s), ?_⟩
  rw [started_construct]
  simp [State.withTransients, hidle]

/-- Settles O17: the two codings of `MODE_IN` by evaluation; with the empty micro-program, `SETMODE` is its complete step, which writes
`MODE` from the latched operand. -/
theorem setmodeResult : Obligations.SetmodeResult := by
  unfold Obligations.SetmodeResult
  refine ⟨fun a v => ⟨rfl, rfl⟩, fun m s hr => ?_⟩
  obtain ⟨hidle, -⟩ := id hr
  have hc : (Instr.setmode m).op ≠ .construct := nofun
  refine ⟨_, exec_started (refusalOf_ready hr hc) (presentable_host rfl s), ?_⟩
  rw [started_silent (not_sends_accepted (.inr (.inl rfl))) hc]
  simp [completeStep, commit, commitSetmode, acceptStep, clearForRead, latched, Instr.op, State.withTransients, hidle]

end Sys2Proof.Machine

/-! Write-enable latch control (`42_latch.md` R130 to R133). `EWEN` and `EWDS` are one operation with two control codes: a command,
`W(CS, 0)`, and a complete step that writes `EW`. `QUERY` and a gated mutating operation send nothing and are their complete step. -/

namespace Sys2Proof.Machine

/-! ### Steps of the spec's own size before the complete step (R174, R178) -/

/-- What a step of the spec's own size can be: a micro step, or the complete step. -/
theorem seqStep_cases {s t : State} (h : seqStep s = .next t) : (∃ u, t = microStep u s) ∨ t = completeStep s := by
  unfold seqStep at h
  split at h
  · exact .inl ⟨_, (Host.Outcome.next.inj h).symm⟩
  · split at h
    · exact .inr (Host.Outcome.next.inj h).symm
    · cases h

/-- While the engine is still busy only micro steps have been performed, and those commit nothing. -/
theorem seqRun_keeps_of_busy {n : Nat} {s u : State} (h : seqRun n s = .next u) (hb : u.busy = true) : MicroKeeps s u := by
  induction n generalizing s with
  | zero =>
    obtain rfl : s = u := Host.Outcome.next.inj h
    exact .rfl' s
  | succ n ih =>
    cases hstep : seqStep s with
    | fault r => simp [seqRun, hstep] at h
    | refused r => simp [seqRun, hstep] at h
    | next t =>
      rw [seqRun, hstep] at h
      have hk : MicroKeeps t u := ih h
      rcases seqStep_cases hstep with ⟨v, rfl⟩ | rfl
      · exact (microStep_keeps v s).trans hk
      · simp [hk.busy] at hb

/-! ### `EWEN` and `EWDS` (R130, R131) -/

theorem length_writes_commandEvents (T : Nat) (m : Mode) (cf : Word) :
    (writes (commandEvents T m cf)).length = 1 + 4 * (1 + OW m) := by
  simp only [commandEvents, writes_append, List.length_append, length_writes_txEvents, writes, List.length_singleton]
  omega

theorem completeStep_latch {s : State} (ho : s.op = .ewen ∨ s.op = .ewds) :
    completeStep s = { s with ew := ewAfter s.op s.ew, busy := false, ret := .nothing } := by
  rcases ho with ho | ho <;> simp [completeStep, commit, commitEwen, commitEwds, State.setEw, State.clearEw, ewAfter, ho]

/-- The micro-program of `EWEN` or `EWDS`: the command, `W(CS, 0)`, the complete step. -/
theorem runMicro_latch {a : State} (ho : a.op = .ewen ∨ a.op = .ewds) :
    runMicro (progOf a) a = completeStep ((a.afterCommand.setPin .CS false).emit (.W .CS false)).advance := by
  have hs : Sends a := ho.elim .inl (.inr ∘ .inl)
  have hresp : responseProgram a = [.write .CS false] := by rcases ho with ho | ho <;> simp [responseProgram, ho]
  rw [progOf_sends hs, runMicro_command hs, hresp, runMicro_write, runMicro_nil]

/-- What `EWEN` (`base` its control code) and `EWDS` (`base` its own) come to: the command with that code, the three lines low, `EW`
written, and not before the complete step. -/
theorem exec_latch {i : Instr} {s : State} {base : Word}
    (h : i.op = .ewen ∧ base = CC_EWEN ∨ i.op = .ewds ∧ base = CC_EWDS) (hr : Ready s) (hp : Presentable i s) :
    ∃ t, exec i s = .next t ∧
      t = { s.withTransients t with
        ew := ewAfter i.op s.ew, cs := false, sk := false, di := false, ret := .nothing,
        trace := s.trace ++ (commandEvents s.cfg.tHold s.mode (base <<< SH s.mode) ++ [.W .CS false]) } ∧
      (writes (commandEvents s.cfg.tHold s.mode (base <<< SH s.mode) ++ [.W .CS false])).length = 2 + 4 * (1 + OW s.mode) ∧
      ∀ n u, seqRun n (acceptStep i.op (latched i s)) = .next u → u.busy = true → u.ew = s.ew := by
  obtain ⟨hidle, -⟩ := id hr
  have ho : i.op = .ewen ∨ i.op = .ewds := h.imp And.left And.left
  have hc : i.op ≠ .construct := by rcases ho with ho | ho <;> simp [ho]
  have hread : i.op ≠ .read := by rcases ho with ho | ho <;> simp [ho]
  have hsent : sentEvents (acceptStep i.op (latched i s)) = commandEvents s.cfg.tHold s.mode (base <<< SH s.mode) := by
    rcases h with ⟨ho, rfl⟩ | ⟨ho, rfl⟩ <;> simp [sentEvents, codeField, ho]
  refine ⟨_, exec_started (refusalOf_ready hr hc) hp, ?_, ?_, fun n u hrun hb => ?_⟩
  · rw [started, runMicro_latch ho, completeStep_latch ho, State.afterCommand, hsent]
    simp [State.withTransients, State.setPin, State.emit, State.advance, clearForRead, hread, hidle]
  · rw [writes_append, List.length_append, length_writes_commandEvents]
    simp only [writes, List.length_singleton]
    omega
  · simpa using (seqRun_keeps_of_busy hrun hb).ew

/-- Settles O18: `exec_latch` with `EWEN`'s control code, whose complete step sets `EW`. -/
theorem ewenResult : Obligations.EwenResult := by
  unfold Obligations.EwenResult
  refine ⟨fun _ _ _ => rfl, fun i s ho hr hp => ?_⟩
  have h := exec_latch (.inl ⟨ho, rfl⟩) hr hp
  rwa [show ewAfter i.op s.ew = true by rw [ho]; rfl] at h

/-- Settles O19: `exec_latch` with `EWDS`'s control code, whose complete step clears `EW`. -/
theorem ewdsResult : Obligations.EwdsResult := by
  unfold Obligations.EwdsResult
  refine ⟨fun _ _ _ => rfl, fun i s ho hr hp => ?_⟩
  have h := exec_latch (.inr ⟨ho, rfl⟩) hr hp
  rwa [show ewAfter i.op s.ew = false by rw [ho]; rfl] at h

/-! ### `QUERY` and the gate (R132, R133) -/

/-- Settles O21: behind the gate the operation sends nothing, and its complete step writes the empty return value alone. -/
theorem gatedMutatingIsSilent : Obligations.GatedMutatingIsSilent := by
  unfold Obligations.GatedMutatingIsSilent
  intro i s hm hr hp he
  obtain ⟨hidle, -⟩ := id hr
  have hs : ¬ Sends (acceptStep i.op (latched i s)) := not_sends_accepted (.inr (.inr (.inr ⟨hm, he⟩)))
  refine ⟨_, exec_mutating hm hr hp, ?_⟩
  rw [started_silent hs (op_ne_construct_of_mutating hm), completeStep_mutating (by simpa using hm), latched_eq]
  simp [acceptStep, clearForRead_mutating hm, State.withTransients, hidle]

/-- Settles O20: the code by evaluation; with the empty micro-program, `QUERY` is its complete step, which returns `EW`. -/
theorem queryResult : Obligations.QueryResult := by
  unfold Obligations.QueryResult
  refine ⟨fun _ _ _ => rfl, fun s hr => ?_⟩
  obtain ⟨hidle, -⟩ := id hr
  have hc : Instr.query.op ≠ .construct := nofun
  refine ⟨_, exec_started (refusalOf_ready hr hc) (presentable_host rfl s), ?_⟩
  rw [started_silent (not_sends_accepted (.inr (.inr (.inl rfl)))) hc]
  simp [completeStep, commit, commitQuery, acceptStep, clearForRead, latched, Instr.op, State.withTransients, hidle]

end Sys2Proof.Machine

/-! The mutating operations (`43_program.md` R140 to R145). The four are one operation with four commands: past the gate, the command, then a
completion wait. A chip that is ready at the first sample ends the wait in the instruction's own step. -/

namespace Sys2Proof.Machine

/-- What a mutating operation comes to when the chip is ready at the first sample (R140, R145): `mutatingCommand` and the completion wait,
the three lines low, and its own operands in the latches. -/
theorem exec_mutating_completes {i : Instr} {s : State} (hm : i.op.mutating = true) (hr : Ready s) (hp : Presentable i s)
    (he : s.ew = true) (hl : s.nextLevel = s.cfg.readyLevel) :
    ∃ t, exec i s = .next t ∧
      t = { s.takeLevel.withTransients t with
        cs := false, sk := false, di := false, ret := .nothing,
        trace := s.trace ++ mutatingCommand s.cfg.tHold s.mode i.op (addrOf i) (valueOf i)
          ++ [.W .CS false, .W .CS true, .S s.cfg.readyLevel, .W .CS false] } ∧
      t.op = i.op ∧ (i.op = .write ∨ i.op = .erase → t.aL = addrOf i) ∧ (i.op = .wral ∨ i.op = .write → t.vL = valueOf i) := by
  obtain ⟨hidle, -⟩ := id hr
  obtain ⟨t, hexec, ht⟩ := exec_mutating_ready hm hr hp he hl
  obtain ⟨hop, haL, hvL, -⟩ := transientRegisters i s t hexec
  refine ⟨t, hexec, ?_, hop, ?_, ?_⟩
  · simpa [State.withTransients, hidle] using ht
  · rintro (ho | ho) <;> simpa [ho] using haL
  · rintro (ho | ho) <;> simpa [ho] using hvL

/-- Settles O22: `exec_mutating_completes` with `ERAL`'s command, its shifted control code. -/
theorem eralResult : Obligations.EralResult := by
  unfold Obligations.EralResult
  intro i s ho hr hp he hl
  obtain ⟨t, hexec, ht, -⟩ := exec_mutating_completes (by rw [ho]; rfl) hr hp he hl
  rw [ho, mutatingCommand] at ht
  exact ⟨t, hexec, ht⟩

/-- Settles O23: `exec_mutating_completes` with `WRAL`'s command, its shifted control code and the truncated value. -/
theorem wralResult : Obligations.WralResult := by
  unfold Obligations.WralResult
  intro i s ho hr hp he hl
  obtain ⟨t, hexec, ht, hop, -, hvL⟩ := exec_mutating_completes (by rw [ho]; rfl) hr hp he hl
  rw [ho, mutatingCommand, ← List.append_assoc s.trace] at ht
  exact ⟨t, hexec, ht, hop.trans ho, hvL (.inl ho)⟩

/-- Settles O24: `exec_mutating_completes` with `WRITE`'s command, its opcode with the truncated address and the truncated value. -/
theorem writeResult : Obligations.WriteResult := by
  unfold Obligations.WriteResult
  intro i s ho hr hp he hl
  obtain ⟨t, hexec, ht, hop, haL, hvL⟩ := exec_mutating_completes (by rw [ho]; rfl) hr hp he hl
  rw [ho, mutatingCommand, ← List.append_assoc s.trace] at ht
  exact ⟨t, hexec, ht, hop.trans ho, haL (.inl ho), hvL (.inr ho)⟩

/-- Settles O25: `exec_mutating_completes` with `ERASE`'s command, its opcode with the truncated address. -/
theorem eraseResult : Obligations.EraseResult := by
  unfold Obligations.EraseResult
  intro i s ho hr hp he hl
  obtain ⟨t, hexec, ht, hop, haL, -⟩ := exec_mutating_completes (by rw [ho]; rfl) hr hp he hl
  rw [ho, mutatingCommand] at ht
  exact ⟨t, hexec, ht, hop.trans ho, haL (.inr ho)⟩

end Sys2Proof.Machine

/-! The read operation (`44_read.md` R160, R161, R163). `READ` is its command, the receiver on a cleared `RSR`, `W(CS, 0)`, and a complete
step that returns `RSR`. What comes back is made of the samples alone; the address goes no further than the command. -/

namespace Sys2Proof.Machine

/-- The complete step of `READ` returns `RSR` (R160, R178). -/
theorem completeStep_read {s : State} (ho : s.op = .read) :
    completeStep s = { s with busy := false, ret := .value s.rsr } := by
  simp [completeStep, commit, commitRead, ho]

/-- A receiver that starts from 0 holds one response's samples (R102, R161). -/
theorem storeSamples_levels (m : Mode) (s : State) :
    storeSamples 0 (DW m) (State.levels (DW m) s) = ofSamples (State.levels (DW m) s) := by
  have hn : (State.levels (DW m) s).length ≤ 16 := by cases m <;> simp [DW]
  simpa using storeSamples_zero _ hn

/-- The samples of a response set no bit above their number (R161, D7). -/
theorem ofSamples_toNat_lt (bits : List Level) : (ofSamples bits).toNat < 2 ^ bits.length := by
  rw [ofSamples, BitVec.toNat_ofNat]
  exact (Nat.mod_le _ _).trans_lt (ofWireBits_lt bits)

/-- The micro-program of `READ`: the command, the response into `RSR`, `W(CS, 0)`, the complete step (R160, R172). -/
theorem runMicro_read {a : State} (ho : a.op = .read) (hrsr : a.rsr = 0) :
    runMicro (progOf a) a =
      { (State.takeLevels (DW a.mode) a).withTransients (runMicro (progOf a) a) with
        busy := false, cs := false, sk := false, di := false,
        rsr := ofSamples (State.levels (DW a.mode) a), ret := .value (ofSamples (State.levels (DW a.mode) a)),
        trace := a.trace ++ sentEvents a ++ responseEvents a } := by
  have hs : Sends a := .inr (.inr (.inl ho))
  obtain ⟨hlevels, hscript, hdrawn⟩ := takeLevels_congr (DW a.mode) (afterCommand_doScript a) (afterCommand_drawn a)
  simp only [progOf_sends hs, runMicro_command hs, responseProgram, responseEvents, ho]
  rw [runMicro_rx_pos _ (DW_pos _), runMicro_write, runMicro_nil, hlevels, takeLevels_eq _ a.afterCommand, hscript, hdrawn,
    completeStep_read (by simpa using ho), takeLevels_eq _ a]
  simpa [State.withTransients, State.setPin, State.emit, State.advance, hrsr] using storeSamples_levels a.mode a

/-- What `READ` and its frames come to: the accept step clears `RSR`, latches the instruction's own address and leaves the environment's
answers as they were (R173). -/
theorem exec_read {i : Instr} {s : State} (ho : i.op = .read) (hr : Ready s) (hp : Presentable i s) :
    ∃ t, exec i s = .next t ∧
      t = { (State.takeLevels (DW s.mode) s).withTransients t with
        cs := false, sk := false, di := false,
        rsr := ofSamples (State.levels (DW s.mode) s), ret := .value (ofSamples (State.levels (DW s.mode) s)),
        trace := s.trace ++ readCommandEvents s.cfg.tHold s.cfg.rd16aw s.mode (addrOf i)
          ++ rxEvents s.cfg.tHold (State.levels (DW s.mode) s) ++ [.W .CS false] } := by
  obtain ⟨hidle, -⟩ := id hr
  have hrun := runMicro_read (a := acceptStep i.op (latched i s)) ho (by simp [clearForRead, ho])
  obtain ⟨hlevels, hscript, hdrawn⟩ :=
    takeLevels_congr (s := acceptStep .read (latched i s)) (t := s) (DW s.mode) (by simp) (by simp)
  have haL : (latched i s).aL = addrOf i := (latched_operands i s).1 (.inr (.inr ho))
  refine ⟨_, exec_started (refusalOf_ready hr (by simp [ho])) hp, hrun.trans ?_⟩
  rw [takeLevels_eq, takeLevels_eq _ s]
  simp [started, State.withTransients, sentEvents, responseEvents, ho, haL, hlevels, hscript, hdrawn, hidle]

/-- `READ` leaves the samples in `RSR` and returns what `RSR` holds (R160, R178). -/
theorem exec_read_value {i : Instr} {s t : State} (ho : i.op = .read) (h : exec i s = .next t) :
    t.rsr = ofSamples (State.levels (DW s.mode) s) ∧ t.ret = .value t.rsr := by
  refine ⟨by rw [exec_rsr h, if_pos ho], ?_⟩
  cases exec_ended h with
  | completed u hu ht => rw [ht, completeStep_read (hu.keeps.op.trans ho)]
  | waits ht hm => simp [ho, Op.mutating] at hm

/-- Settles O27: `exec_read`; the transient registers have a statement of their own, and a response has `DW` samples. -/
theorem readResult : Obligations.ReadResult := by
  unfold Obligations.ReadResult
  intro i s ho hr hp
  obtain ⟨t, hexec, ht⟩ := exec_read ho hr hp
  obtain ⟨hop, haL, -⟩ := transientRegisters i s t hexec
  obtain ⟨hrsr, -⟩ := exec_read_value ho hexec
  refine ⟨t, hexec, ht, hop.trans ho, by simpa [ho] using haL, ?_⟩
  simpa [hrsr] using ofSamples_toNat_lt (State.levels (DW s.mode) s)

/-- Settles O39: `RSR` is the samples, whatever else the states hold, and the value returned is `RSR`. -/
theorem readDependsOnlyOnSamples : Obligations.ReadDependsOnlyOnSamples := by
  unfold Obligations.ReadDependsOnlyOnSamples
  intro a b s t u v _ hlevels hu hv
  obtain ⟨hursr, huret⟩ := exec_read_value rfl hu
  obtain ⟨hvrsr, hvret⟩ := exec_read_value rfl hv
  have hrsr : u.rsr = v.rsr := by rw [hursr, hvrsr, hlevels]
  exact ⟨by rw [huret, hvret, hrsr], hrsr⟩

end Sys2Proof.Machine

/-! The sequencer (`45_sequencer.md` R170 to R181): which operations it accepts, its micro-programs, and its steps of the spec's own size,
of which every step of the model is one or more. -/

namespace Sys2Proof.Machine

/-! ### Transactions (R170, R173, R181) -/

/-- Settles O7: the idle branch of `step`, with a host list whose head decodes. -/
theorem stepRunsPresentedInstruction : Obligations.StepRunsPresentedInstruction := by
  unfold Obligations.StepRunsPresentedInstruction
  intro s p rest i hb hh hd
  simp [step, hb, hh, hd]

/-- An operation that is not accepted is refused, for that reason, presented as a command or as a frame (R181, R207, R222). -/
theorem exec_refused {i : Instr} {s : State} {r : Refusal} (h : refusalOf i.op s = some r) : exec i s = .refused r := by
  cases hm : i.frameMode with
  | none => simp [exec_host hm, operate, h]
  | some m => simp [exec_frame hm, operateFrame, h]

/-- Settles O10: `BUSY` is the first thing an operation is refused for. -/
theorem busyEngineRefusesEveryOperation : Obligations.BusyEngineRefusesEveryOperation := by
  unfold Obligations.BusyEngineRefusesEveryOperation
  intro i s hb
  exact exec_refused (by simp [refusalOf, hb])

/-- Settles O11: idle and not `CONSTRUCT`, the operation comes to the check of `State.constructed`. -/
theorem unconstructedEngineRefuses : Obligations.UnconstructedEngineRefuses := by
  unfold Obligations.UnconstructedEngineRefuses
  intro i s hb hc ho
  exact exec_refused (by simp [refusalOf, hb, ho, hc])

/-! ### Micro-programs (R172) -/

/-- The gate empties the micro-program or leaves it whole (R133, R176). -/
theorem length_gated (ew : Bool) (us : List MicroOp) : (gated ew us).length = if ew then us.length else 0 := by
  cases ew <;> rfl

/-- Settles O48: by operation and mode, from the lengths of `TX`, `RX` and a frame. -/
theorem microprogramLengths : Obligations.MicroprogramLengths := by
  unfold Obligations.MicroprogramLengths
  intro s
  cases ho : s.op <;> cases hm : s.mode
  case construct.X16 | construct.X8 => simp [progOf, ho, progConstruct]
  case setmode.X16 | setmode.X8 => simp [progOf, ho, progSetmode]
  case query.X16 | query.X8 => simp [progOf, ho, progQuery]
  case ewen.X16 | ewen.X8 => simp [progOf, ho, hm, progEwen, OW]
  case ewds.X16 | ewds.X8 => simp [progOf, ho, hm, progEwds, OW]
  case eral.X16 | eral.X8 => simp [progOf, ho, hm, length_gated, progEral, wait, OW]
  case erase.X16 | erase.X8 => simp [progOf, ho, hm, length_gated, progErase, wait, OW]
  case wral.X16 | wral.X8 => simp [progOf, ho, hm, length_gated, progWral, wait, OW, DW]
  case write.X16 | write.X8 => simp [progOf, ho, hm, length_gated, progWrite, wait, OW, DW]
  case read.X8 => simp [progOf, ho, hm, progRead, OW]
  case read.X16 => cases hw : s.cfg.rd16aw <;> simp [progOf, ho, hm, hw, progRead, readAddrBits]

/-! ### One step of the spec's own size (R171, R174, R175, R178) -/

theorem seqStep_microStep {s : State} {u : MicroOp} (h : (progOf s)[s.upc]? = some u) : seqStep s = .next (microStep u s) := by
  simp [seqStep, h]

theorem seqStep_completeStep {s : State} (h : s.upc = (progOf s).length) : seqStep s = .next (completeStep s) := by
  simp [seqStep, h]

/-- Settles O50: past the last micro-operation comes the complete step, and `commit` has R178's table by `OP`. -/
theorem completeStepCommits : Obligations.CompleteStepCommits := by
  unfold Obligations.CompleteStepCommits
  intro s h
  rw [seqStep_completeStep h]
  cases ho : s.op
  case construct => simp [completeStep, commit, ho, commitConstruct, State.clearEw]
  case setmode => simp [completeStep, commit, ho, commitSetmode]
  case query => simp [completeStep, commit, ho, commitQuery]
  case ewen => simp [completeStep_latch (.inl ho), ewAfter, ho]
  case ewds => simp [completeStep_latch (.inr ho), ewAfter, ho]
  case read => simp [completeStep_read ho, ho]
  case eral | wral | write | erase => simp [completeStep_mutating, Op.mutating, ho]

/-- Settles O49: what every micro step keeps is `microStep_keeps`; what each writes is R171's row. -/
theorem microStepsCommitNothing : Obligations.MicroStepsCommitNothing := by
  unfold Obligations.MicroStepsCommitNothing
  intro s u _ hu
  have hk : MicroKeeps s (microStep u s) := microStep_keeps u s
  refine ⟨_, seqStep_microStep hu, hk.progOf, hk.ew, hk.mode, hk.op, hk.aL, hk.vL, hk.mL, hk.busy, hk.ret, hk.constructed, ?_⟩
  cases u with
  | config p d => cases p <;> rfl
  | write p v => cases p <;> rfl
  | drive v i => rfl
  | delay n => rfl
  | hold i n => rfl
  | sample i =>
    refine ⟨?_, fun j hj => ?_⟩
    · simp [State.storeRx, State.emit, State.advance]
    · simpa using setBit_getLsbD s.rsr i s.nextLevel hj
  | poll =>
    by_cases hl : s.nextLevel = s.cfg.readyLevel
    · simp [microStep_poll_ready hl, hl, State.emit, State.advance]
    · simp [microStep_poll_notReady hl, hl, State.emit]

/-! ### A step of the model is one or more of the spec's (R179) -/

theorem seqRun_succ {s t : State} (h : seqStep s = .next t) (n : Nat) : seqRun (n + 1) s = seqRun n t := by
  simp [seqRun, h]

/-- Running what is left of the micro-program, to its complete step or to a poll that fails, takes one or more steps of the spec's own
size: one for each micro-operation performed, and one to complete. -/
theorem exists_seqRun_eq_runMicro {us : List MicroOp} {s : State} (hd : (progOf s).drop s.upc = us)
    (hle : s.upc ≤ (progOf s).length) : ∃ n, 0 < n ∧ seqRun n s = .next (runMicro us s) := by
  induction us generalizing s with
  | nil =>
    have hend : s.upc = (progOf s).length := le_antisymm hle (List.drop_eq_nil_iff.1 hd)
    exact ⟨1, Nat.one_pos, seqRun_succ (seqStep_completeStep hend) 0⟩
  | cons u rest ih =>
    have hget : (progOf s)[s.upc]? = some u := by rw [← List.head?_drop, hd]; rfl
    have hprog : progOf (microStep u s) = progOf s := (microStep_keeps u s).progOf
    have hrun (n : Nat) : seqRun (n + 1) s = seqRun n (microStep u s) := seqRun_succ (seqStep_microStep hget) n
    rcases microStep_upc u s with hup | ⟨-, -, hstay⟩
    · have hlt : s.upc < (progOf s).length := (List.getElem?_eq_some_iff.1 hget).1
      have htail : (progOf (microStep u s)).drop (microStep u s).upc = rest := by
        rw [hprog, hup, ← List.tail_drop, hd]; rfl
      obtain ⟨n, -, hn⟩ := ih htail (by rw [hprog, hup]; exact hlt)
      exact ⟨n + 1, n.succ_pos, by rw [hrun, hn, runMicro_cons_of_advance hup]⟩
    · exact ⟨1, Nat.one_pos, by rw [hrun]; simp [seqRun, runMicro, hstay]⟩

/-- The accept step, field by field (R173). -/
theorem acceptStep_latched (i : Instr) (s : State) :
    acceptStep i.op (latched i s) =
      { s with
        op := i.op, aL := (latched i s).aL, vL := (latched i s).vL, mL := (latched i s).mL, upc := 0, busy := true,
        rsr := clearForRead i.op s.rsr } := by
  rw [latched_eq]
  rfl

/-- Settles O51: the latches by operation (log 15); then the micro-program, run from `UPC` = 0. -/
theorem smallStepsReachTheOperation : Obligations.SmallStepsReachTheOperation := by
  unfold Obligations.SmallStepsReachTheOperation
  refine ⟨fun i s => ?_, fun i s t h => ?_⟩
  · rw [acceptStep_latched, latched_aL, latched_vL, latched_mL]
    cases i.op <;> rfl
  · obtain ⟨-, -, rfl⟩ := exec_next h
    exact exists_seqRun_eq_runMicro (by simp) (by simp)

/-- An operation is resumed only from inside its micro-program or from its end (R27). -/
theorem upc_le_of_resume_next {s t : State} (h : resume s = .next t) : s.upc ≤ (progOf s).length := by
  unfold resume at h
  split at h
  · assumption
  · cases h

/-- Settles O52: a busy engine's step runs what is left of the micro-program from `UPC` on. -/
theorem smallStepsReachTheResumedStep : Obligations.SmallStepsReachTheResumedStep := by
  unfold Obligations.SmallStepsReachTheResumedStep
  intro s t hb h
  have hres : resume s = .next t := by simpa [step, hb] using h
  rw [resume_next hres]
  exact exists_seqRun_eq_runMicro rfl (upc_le_of_resume_next hres)

end Sys2Proof.Machine

/-! Exceptions (`60_exceptions.md` R190, R195). The block has none: an instruction is refused or answers a next state, and the model's one
fault, `UPC` beyond the program (log 18), is in no state that meets `PinsInv`. -/

namespace Sys2Proof.Machine

theorem operate_ne_fault (op : Op) (s : State) (r : Fault) : operate op s ≠ .fault r := by
  unfold operate
  split <;> exact nofun

theorem operateFrame_ne_fault (i : Instr) (s : State) (r : Fault) : operateFrame i s ≠ .fault r := by
  unfold operateFrame
  split
  · exact nofun
  · split
    · exact nofun
    · exact operate_ne_fault i.op s r

/-- No instruction faults (R190). -/
theorem exec_ne_fault (i : Instr) (s : State) (r : Fault) : exec i s ≠ .fault r := by
  cases hm : i.frameMode with
  | none => exact exec_host hm s ▸ operate_ne_fault i.op _ r
  | some m => exact exec_frame hm s ▸ operateFrame_ne_fault i _ r

/-- Only an operation in progress could fault: an idle engine waits, refuses what is no instruction, or performs one. -/
theorem step_idle_ne_fault {s : State} (hb : s.busy = false) (r : Fault) : step s ≠ .fault r := by
  cases hh : s.host with
  | nil => simp [step, hb, hh]
  | cons p rest =>
    cases hd : decode p with
    | rejected why => simp [step_rejected hb hh hd]
    | instr i => exact stepRunsPresentedInstruction s p rest i hb hh hd ▸ exec_ne_fault i _ r

/-- Settles O38: a busy engine that meets the invariant is about to poll, which answers a next state, and an idle one does not fault; a
next state meets the invariant again (O34), so it waits for the chip if it is busy. -/
theorem stepNeverFaults : Obligations.StepNeverFaults := by
  unfold Obligations.StepNeverFaults
  intro s hi
  refine ⟨fun r => ?_, fun t h => ?_⟩
  · cases hb : s.busy with
    | false => exact step_idle_ne_fault hb r
    | true =>
      obtain ⟨-, -, hwait⟩ := hi
      simp [step_waiting (hwait hb)]
  · obtain ⟨-, -, hwait⟩ := stepKeepsIdlePinsLow s t hi h
    cases hb : t.busy with
    | false => exact .inl rfl
    | true => exact .inr (hwait hb)

/-- Settles O12: an idle engine's one check of `CONSTRUCT` is that of its pins. -/
theorem badPinsRefused : Obligations.BadPinsRefused := by
  unfold Obligations.BadPinsRefused
  intro s hb hpins
  exact exec_refused (by simp [refusalOf, hb, Instr.op, hpins])

end Sys2Proof.Machine

/-! Reset (`70_reset_and_hazards.md` R221). After reset the first thing that happens is the operation the host presents first; until then the
idle engine waits. -/

namespace Sys2Proof.Machine

/-- Settles O9: a step of an idle engine is decided by what the host presents, and with nothing presented it is the wait (log 21). -/
theorem idleEngineWaits : Obligations.IdleEngineWaits := by
  unfold Obligations.IdleEngineWaits
  intro s hidle hnone
  simp [step, hidle, hnone]

end Sys2Proof.Machine
